-- ==== Sys2Proof/Word.lean ====
section
/-! DEFINITION. The word types of the raster codec block: bytes, colours, host words, the two engines'
names, and the two small records that tables and parameters are made of. -/

namespace Sys2Proof

/-- One byte of a byte space (20_memory.md R70). -/
abbrev Byte := BitVec 8

/-- A 24-bit colour, R in bits 23:16, G in bits 15:8, B in bits 7:0 (00_scope.md R14). -/
abbrev Colour := BitVec 24

/-- A 16-bit word: a command word, a header field (30_encoding.md R101, R104). -/
abbrev Word16 := BitVec 16

/-- A word of the host port (10_state.md R40). -/
abbrev Word32 := BitVec 32

/-- The two engines of one instance of the block (00_scope.md R10, 10_state.md R20). -/
inductive Engine where
  | dec
  | enc
deriving DecidableEq, Repr, Inhabited

/-- One colour in DAC form, 6 bits a channel (42_palette_and_colormap.md R180). -/
structure DacColour where
  r : BitVec 6
  g : BitVec 6
  b : BitVec 6
deriving DecidableEq, Repr, Inhabited

/-- One entry of the colour-index map (10_state.md R55, R58). -/
structure CimEntry where
  valid  : Bool
  colour : Colour
deriving DecidableEq, Repr, Inhabited

end Sys2Proof
end

