-- ==== Sys2Proof/Config.lean ====
section
/-! DEFINITION. What is fixed for the machine: the constants of 00_scope.md R7 and R9, the two open
parameters of R8 as constants without a body, and the free values. -/

namespace Sys2Proof.Config

/-- `VW`, the width of the virtual canvas (00_scope.md R7). -/
def virtualWidth : Nat := 320
/-- `VH`, the height of the virtual canvas (R7). -/
def virtualHeight : Nat := 200
/-- `CANVAS_SIZE` (R7). -/
def canvasSize : Nat := 64000
/-- `NPLANES`, and the stride of a plane (R7). -/
def planes : Nat := 4
/-- `COUNT_MAX`, the largest count of a command word and the run cap (R7). -/
def countMax : Nat := 16383
/-- `PATCH_FIRST`, the first index the patch rule covers (R7). -/
def patchFirst : Nat := 198
/-- `PATCH_COUNT` (R7). -/
def patchCount : Nat := 58
/-- `HDR_BYTES` (R7). -/
def headerBytes : Nat := 8
/-- `PAL_BYTES` (R7). -/
def paletteBytes : Nat := 768
/-- `DESC_BYTES` (R7). -/
def descriptorBytes : Nat := 800
/-- `CSLEN_MAX` (R7). -/
def streamMax : Nat := 65535
/-- `FILE_CAP`, the size of DIN and of EOUT (R9). -/
def fileCap : Nat := 67111
/-- `AUX_CAP`, the size of AUX (R9). -/
def auxCap : Nat := 1024
/-- `BLACK` (R14). -/
def black : Colour := 0#24

/-- The open parameter `SENTINEL` (00_scope.md R8): no value is assumed. -/
opaque sentinel : Colour
/-- The open parameter `PATCH_TABLE` (R8): entry `k` is for palette index `198 + k`. -/
opaque patchTable : Vector DacColour 58

/-- The parameters of one instance, as the machine carries them (log 1). -/
structure Params where
  sentinel   : Colour
  patchTable : Vector DacColour 58
deriving DecidableEq, Repr

/-- The instance the spec leaves open. -/
def params : Params := { sentinel := sentinel, patchTable := patchTable }

/-- Free value number `n` of width `w`: a value the spec leaves unspecified (log 8). -/
opaque freeBits : (n w : Nat) → BitVec w
/-- Free contents of a byte space (log 8). -/
opaque freeBytes : Nat → List (Nat × Byte)
/-- Free contents of a pixel space (log 8). -/
opaque freePixels : Nat → List (Nat × Colour)
/-- Free contents of a palette table (log 8). -/
opaque freeColours : Nat → Vector Colour 256
/-- Free contents of a colour-index map (log 8). -/
opaque freeMap : Nat → Vector CimEntry 256

end Sys2Proof.Config
end

