-- ==== Sys2Proof/Syntax.lean ====
section
/-! DEFINITION. The instructions: one constructor for each row of spec/opcode_table.json. The four
stream commands carry the count of their command word; a host command carries the engine whose `CMD`
register received its code. Payload bytes of REPEAT and COPY stay in the stream and are read by the
meaning, element by element (40_decoder_commands.md R133, R134, R138). -/

namespace Sys2Proof

inductive Instr where
  /-- EOP, tag 0, count unused (R131). -/
  | eop (count : Nat)
  /-- SKIP, tag 1 (R132). -/
  | skip (count : Nat)
  /-- REPEAT, tag 2 (R133). -/
  | repeatRun (count : Nat)
  /-- COPY, tag 3 (R134). -/
  | copyRun (count : Nat)
  /-- NOP, code 0x00 (R277). -/
  | nop (e : Engine)
  /-- RUN on DEC, code 0x01 written to `D_CMD` (R150). -/
  | runDec
  /-- RUN on ENC, code 0x01 written to `E_CMD` (R210). -/
  | runEnc
  /-- CLEAR, code 0x02 (R276). -/
  | clear (e : Engine)
  /-- PAL_GET, code 0x10 (R187). -/
  | palGet (e : Engine)
  /-- PAL_SET, code 0x11 (R187). -/
  | palSet (e : Engine)
  /-- PAL_LOAD_FLAT, code 0x12 (R184). -/
  | palLoadFlat (e : Engine)
  /-- PAL_LOAD_LIST, code 0x13 (R185). -/
  | palLoadList (e : Engine)
  /-- PAL_STORE_FLAT, code 0x14 (R186). -/
  | palStoreFlat (e : Engine)
  /-- PAL_PATCH, code 0x15 (R189). -/
  | palPatch (e : Engine)
  /-- PAL_CLEAR, code 0x16 (R190). -/
  | palClear (e : Engine)
  /-- CIM_STORE, code 0x20 (R197). -/
  | cimStore (e : Engine)
  /-- CIM_LOAD, code 0x21 (R198). -/
  | cimLoad (e : Engine)
  /-- CIM_CLEAR, code 0x22 (R199). -/
  | cimClear (e : Engine)
deriving DecidableEq, Repr, Inhabited

end Sys2Proof
end

