-- ==== Sys2Proof/WellFormed.lean ====
section
/-! DEFINITION. Which instructions are well formed: a stream command's count fits its 14 bits
(30_encoding.md R104); a host command has nothing that could be ill formed. -/

namespace Sys2Proof

/-- The check on an instruction's operands. -/
def Instr.wellFormed : Instr → Bool
  | .eop n => decide (n ≤ Config.countMax)
  | .skip n => decide (n ≤ Config.countMax)
  | .repeatRun n => decide (n ≤ Config.countMax)
  | .copyRun n => decide (n ≤ Config.countMax)
  | .nop _ => true
  | .runDec => true
  | .runEnc => true
  | .clear _ => true
  | .palGet _ => true
  | .palSet _ => true
  | .palLoadFlat _ => true
  | .palLoadList _ => true
  | .palStoreFlat _ => true
  | .palPatch _ => true
  | .palClear _ => true
  | .cimStore _ => true
  | .cimLoad _ => true
  | .cimClear _ => true

end Sys2Proof
end

