-- ==== Sys2Proof/Decode.lean ====
section
/-! DEFINITION. The decoder, total on any bytes and rejecting by name, and after it the encoder,
both from 30_encoding.md R104 to R106 and R112. -/

namespace Sys2Proof

/-- Where the bits of an instruction come from: the command stream in DIN, or a write to an engine's
`CMD` register (30_encoding.md R104, R112). -/
inductive Source where
  | stream
  | cmd (e : Engine)
deriving DecidableEq, Repr

/-- Why bytes are no instruction. -/
inductive DecodeError where
  /-- Fewer bytes than a command word or a code has. -/
  | truncated
  /-- A host command code that 30_encoding.md R112 does not list (R111, R278). -/
  | reservedCode (e : Engine) (code : Byte)
deriving DecidableEq, Repr

/-- A 16-bit word from its bytes in stream order, low byte first (30_encoding.md R105). -/
def wordOfBytes (b0 b1 : Byte) : Word16 := b1 ++ b0

/-- The command word of a tag and a count (30_encoding.md R104). -/
def commandWord (tag : BitVec 2) (count : BitVec 14) : Word16 := tag ++ count

/-- `W[15:14]` (30_encoding.md R104). -/
def wordTag (w : Word16) : BitVec 2 := w.extractLsb' 14 2

/-- `W[13:0]` (30_encoding.md R104). -/
def wordCount (w : Word16) : BitVec 14 := w.extractLsb' 0 14

/-- The command a word stands for: every word is one (30_encoding.md R104). -/
def decodeWord (w : Word16) : Instr :=
  let count := (wordCount w).toNat
  match (wordTag w).toNat with
  | 0 => .eop count
  | 1 => .skip count
  | 2 => .repeatRun count
  | _ => .copyRun count

/-- The host command of a code written to the `CMD` register of engine `e` (30_encoding.md R112). -/
def decodeCode (e : Engine) (code : Byte) : Except DecodeError Instr :=
  match code.toNat with
  | 0x00 => .ok (.nop e)
  | 0x01 => match e with
    | .dec => .ok .runDec
    | .enc => .ok .runEnc
  | 0x02 => .ok (.clear e)
  | 0x10 => .ok (.palGet e)
  | 0x11 => .ok (.palSet e)
  | 0x12 => .ok (.palLoadFlat e)
  | 0x13 => .ok (.palLoadList e)
  | 0x14 => .ok (.palStoreFlat e)
  | 0x15 => .ok (.palPatch e)
  | 0x16 => .ok (.palClear e)
  | 0x20 => .ok (.cimStore e)
  | 0x21 => .ok (.cimLoad e)
  | 0x22 => .ok (.cimClear e)
  | _ => .error (.reservedCode e code)

/-- The decoder: the instruction at the front of the bytes, and the bytes after it. -/
def decode (src : Source) (bytes : List Byte) : Except DecodeError (Instr × List Byte) :=
  match src, bytes with
  | .stream, b0 :: b1 :: rest => .ok (decodeWord (wordOfBytes b0 b1), rest)
  | .stream, _ => .error .truncated
  | .cmd e, c :: rest => match decodeCode e c with
    | .ok i => .ok (i, rest)
    | .error err => .error err
  | .cmd _, [] => .error .truncated

/-- A word's bytes in stream order (30_encoding.md R106: the low byte comes first). -/
def bytesOfWord (w : Word16) : List Byte := [w.extractLsb' 0 8, w.extractLsb' 8 8]

/-- The bytes of the command word of a tag and a count. -/
def encodeStream (tag : BitVec 2) (count : Nat) : Source × List Byte :=
  (.stream, bytesOfWord (commandWord tag (BitVec.ofNat 14 count)))

/-- The encoder: where an instruction's bits stand, and its bytes (30_encoding.md R106, R112). -/
def encode : Instr → Source × List Byte
  | .eop n => encodeStream 0 n
  | .skip n => encodeStream 1 n
  | .repeatRun n => encodeStream 2 n
  | .copyRun n => encodeStream 3 n
  | .nop e => (.cmd e, [0x00#8])
  | .runDec => (.cmd .dec, [0x01#8])
  | .runEnc => (.cmd .enc, [0x01#8])
  | .clear e => (.cmd e, [0x02#8])
  | .palGet e => (.cmd e, [0x10#8])
  | .palSet e => (.cmd e, [0x11#8])
  | .palLoadFlat e => (.cmd e, [0x12#8])
  | .palLoadList e => (.cmd e, [0x13#8])
  | .palStoreFlat e => (.cmd e, [0x14#8])
  | .palPatch e => (.cmd e, [0x15#8])
  | .palClear e => (.cmd e, [0x16#8])
  | .cimStore e => (.cmd e, [0x20#8])
  | .cimLoad e => (.cmd e, [0x21#8])
  | .cimClear e => (.cmd e, [0x22#8])

/-- The instruction of a table word: a row of 8 bits is a host command code, taken as written to
`D_CMD` (log 12); a longer row is a command word of the stream, its low byte first. -/
def decodeTableWord (nbits w : Nat) : Option Instr :=
  let bytes := if nbits ≤ 8 then [BitVec.ofNat 8 w] else bytesOfWord (BitVec.ofNat 16 w)
  match decode (if nbits ≤ 8 then .cmd .dec else .stream) bytes with
  | .ok (i, _) => some i
  | .error _ => none

end Sys2Proof
end

