-- ==== Sys2Proof/Machine/State.lean ====
section
/-! DEFINITION. The state of one instance of the block (10_state.md), the reasons a step can stop,
and the state after reset (10_state.md R65, 70_reset_and_hazards.md R300). -/

namespace Sys2Proof.Machine

/-- A byte space: cells of one byte in canonical form (Machine/Ops.lean, `Cells.wf`). -/
abbrev ByteSpace := List Host.Cell

/-- A pixel space: cells of one colour in canonical form. -/
abbrev PixelSpace := List (Nat × Colour)

/-- What each engine has of its own and both have alike: the control registers of 10_state.md R40
(bits that are reserved there are no state, R50), the tables of R55 and the space AUX of R60. -/
structure EngineRegs where
  /-- `CTRL[0]` (R41). -/
  palv    : Bool
  /-- `CTRL[1]` (R41). -/
  patchEn : Bool
  /-- `STATUS[0]` (R42). -/
  busy    : Bool
  /-- `STATUS[1]` (R42). -/
  done    : Bool
  /-- `STATUS[2]` (R42). -/
  err     : Bool
  /-- `CAUSE` (R43). -/
  cause   : BitVec 4
  /-- `EPC` (R44). -/
  epc     : BitVec 17
  /-- `ARG0` (R45). -/
  arg0    : Word32
  /-- `ARG1` (R45). -/
  arg1    : Word32
  /-- `RES` (R45). -/
  res     : Word32
  /-- `HASPAL` (R47). -/
  hasPal  : BitVec 16
  /-- `CSLEN` (R47). -/
  csLen   : BitVec 16
  /-- `XPAL` (R56). -/
  xpal    : Vector Colour 256
  /-- `APAL` (R57). -/
  apal    : Vector Colour 256
  /-- `CIM` (R58). -/
  cim     : Vector CimEntry 256
  /-- `AUX` (20_memory.md R73). -/
  aux     : ByteSpace
deriving DecidableEq, Repr

/-- The DEC engine: its registers of R40, the working registers of 10_state.md R21, DIN and CANVAS. -/
structure Decoder extends EngineRegs where
  /-- `D_INLEN` (R46). -/
  inLen  : BitVec 17
  /-- `D_AW` (R48). -/
  aw     : BitVec 16
  /-- `D_AH` (R48). -/
  ah     : BitVec 16
  /-- `SP`, the program counter (R21, R24). -/
  sp     : BitVec 17
  /-- `CSEND` (R21). -/
  csend  : BitVec 17
  /-- `PLANE` (R21). -/
  plane  : BitVec 3
  /-- `CUR` (R21). -/
  cur    : BitVec 32
  /-- `W` (R21). -/
  word   : Word16
  /-- `CNT` (R21). -/
  cnt    : BitVec 14
  /-- `IDX` (R21). -/
  idx    : Byte
  /-- `DIN` (20_memory.md R71). -/
  din    : ByteSpace
  /-- `CANVAS` (20_memory.md R74). -/
  canvas : PixelSpace
deriving DecidableEq, Repr

/-- The ENC engine: its registers of R40, the working registers of 10_state.md R22, GRID and EOUT. -/
structure Encoder extends EngineRegs where
  /-- `E_OUTLEN` (R46). -/
  outLen  : BitVec 17
  /-- `E_GW` (R48). -/
  gw      : BitVec 16
  /-- `E_GH` (R48). -/
  gh      : BitVec 16
  /-- `PLANE` (R22). -/
  plane   : BitVec 3
  /-- `POS` (R22). -/
  pos     : BitVec 17
  /-- `BASE` (R22). -/
  base    : BitVec 17
  /-- `WP` (R22). -/
  wp      : BitVec 17
  /-- `PH` (R22). -/
  ph      : BitVec 17
  /-- `N` (R22). -/
  n       : BitVec 14
  /-- `ROW` (R22). -/
  row     : BitVec 8
  /-- `MINC` (R22). -/
  minc    : BitVec 9
  /-- `MAXC` (R22). -/
  maxc    : BitVec 9
  /-- `ANY` (R22). -/
  any     : Bool
  /-- `PENDING` (R22, R62). -/
  pending : BitVec 9
  /-- `GRID` (20_memory.md R75). -/
  grid    : PixelSpace
  /-- `EOUT` (20_memory.md R72). -/
  eout    : ByteSpace
deriving DecidableEq, Repr

/-- The spaces and tables the host can name (10_state.md R55, R60). -/
inductive Space where
  | din
  | canvas
  | grid
  | eout
  | aux (e : Engine)
  | xpal (e : Engine)
  | apal (e : Engine)
  | cim (e : Engine)
deriving DecidableEq, Repr

/-- One access of the host (70_reset_and_hazards.md R308). A write of register 0 is a host command. -/
inductive HostAccess where
  | readReg (e : Engine) (number : Nat)
  | writeReg (e : Engine) (number : Nat) (value : Word32)
  | read (space : Space) (address : Nat)
  | write (space : Space) (address : Nat) (value : Word32)
deriving DecidableEq, Repr

/-- One move of the agenda: who moves next (log 3). -/
inductive Turn where
  /-- The host makes an access. -/
  | host (access : HostAccess)
  /-- Engine `e` takes one step, if it is busy. -/
  | engine (e : Engine)
  /-- The host polls `STATUS` of engine `e` until `BUSY` is 0 (R310): the engine steps while busy. -/
  | poll (e : Engine)
  /-- The reset event (R300). -/
  | reset
deriving DecidableEq, Repr

/-- The whole machine: both engines, the parameters of the instance, and the model's own fields: the
moves to come, what the host's last read returned, and the index of the next free value. -/
structure State where
  dec    : Decoder
  enc    : Encoder
  par    : Config.Params
  agenda : List Turn
  rdata  : Word32
  free   : Nat
deriving DecidableEq, Repr

/-- Why the machine stops. The spec's own faults are no stops: they are entries the machine takes
(60_exceptions.md R270). -/
inductive Fault where
  /-- Raised by the header step, fetch, REPEAT and COPY for a read of DIN at or past `FILE_CAP`. Safe:
  no run reaches it (20_memory.md R83, log 15). -/
  | dinOutsideSpace
  /-- Raised by the encoder's emits for a write of EOUT at or past `FILE_CAP`. Safe: no run reaches it
  (20_memory.md R83, log 15). -/
  | eoutOutsideSpace
deriving DecidableEq, Repr

/-- Why an instruction has no meaning. -/
inductive Refusal where
  /-- Raised by exec for an instruction that is not modelled. Safe. -/
  | notModelled (mnemonic : String)
deriving DecidableEq, Repr

/-- An engine's common registers after reset (10_state.md R65; APAL and the colours of CIM: log 7;
AUX: log 5). -/
def EngineRegs.reset : EngineRegs where
  palv := false
  patchEn := false
  busy := false
  done := false
  err := false
  cause := 0
  epc := 0
  arg0 := 0
  arg1 := 0
  res := 0
  hasPal := 0
  csLen := 0
  xpal := Vector.replicate 256 Config.black
  apal := Vector.replicate 256 Config.black
  cim := Vector.replicate 256 { valid := false, colour := 0 }
  aux := []

/-- The DEC engine after reset (R65; working registers: log 7; DIN: log 5; CANVAS: log 6). -/
def Decoder.reset : Decoder where
  toEngineRegs := EngineRegs.reset
  inLen := 0
  aw := 0
  ah := 0
  sp := 0
  csend := 0
  plane := 0
  cur := 0
  word := 0
  cnt := 0
  idx := 0
  din := []
  canvas := []

/-- The ENC engine after reset (R65; working registers: log 7; EOUT: log 5; GRID: log 6). -/
def Encoder.reset : Encoder where
  toEngineRegs := EngineRegs.reset
  outLen := 0
  gw := 0
  gh := 0
  plane := 0
  pos := 0
  base := 0
  wp := 0
  ph := 0
  n := 0
  row := 0
  minc := 0
  maxc := 0
  any := false
  pending := 0
  grid := []
  eout := []

/-- The machine right after reset: both engines idle, nothing to come (70_reset_and_hazards.md R300). -/
def State.reset : State where
  dec := Decoder.reset
  enc := Encoder.reset
  par := Config.params
  agenda := []
  rdata := 0
  free := 0

end Sys2Proof.Machine
end

