-- ==== Sys2Proof/Machine/Ops.lean ====
section
/-! DEFINITION. The named operations over memories, tables and registers, the taking of a fault as one
shared operation (60_exceptions.md R270) with what a faulted run leaves (R272), and the
acknowledgement beside it (R276). -/

namespace Sys2Proof.Machine

/-! ## Spaces in canonical form -/

namespace Cells

/-- What address `a` holds, where an unlisted address reads as `d`. -/
def read {w : Nat} (d : BitVec w) : List (Nat × BitVec w) → Nat → BitVec w
  | [], _ => d
  | (k, v) :: m, a => if k = a then v else read d m a

/-- Takes the cell at `a` out of a rising list. -/
def erase {w : Nat} : List (Nat × BitVec w) → Nat → List (Nat × BitVec w)
  | [], _ => []
  | (k, v) :: m, a => if a < k then (k, v) :: m else if k = a then m else (k, v) :: erase m a

/-- Puts the cell `(a, x)` into a rising list, in place of the one at `a` if there is one. -/
def insert {w : Nat} : List (Nat × BitVec w) → Nat → BitVec w → List (Nat × BitVec w)
  | [], a, x => [(a, x)]
  | (k, v) :: m, a, x =>
    if a < k then (a, x) :: (k, v) :: m else if k = a then (a, x) :: m else (k, v) :: insert m a x

/-- Writes `x` at `a`: what an unlisted address reads as is not listed. -/
def write {w : Nat} (d : BitVec w) (m : List (Nat × BitVec w)) (a : Nat) (x : BitVec w) :
    List (Nat × BitVec w) :=
  if x = d then erase m a else insert m a x

/-- The canonical form above `lo`: addresses rise and lie below `size`, no cell holds `d`. -/
def wfFrom {w : Nat} (d : BitVec w) (size : Nat) : Nat → List (Nat × BitVec w) → Bool
  | _, [] => true
  | lo, (k, v) :: m => decide (lo ≤ k) && decide (k < size) && !(v == d) && wfFrom d size (k + 1) m

/-- The canonical form of a space of `size` addresses whose unlisted addresses read as `d`. -/
def wf {w : Nat} (d : BitVec w) (size : Nat) (m : List (Nat × BitVec w)) : Bool := wfFrom d size 0 m

/-- The canonical form of arbitrary cells: those outside the space are dropped, a later cell wins. -/
def ofList {w : Nat} (d : BitVec w) (size : Nat) (cells : List (Nat × BitVec w)) :
    List (Nat × BitVec w) :=
  (cells.filter fun c => decide (c.1 < size)).foldl (fun m c => write d m c.1 c.2) []

end Cells

/-- What an unlisted byte reads as, in every byte space (log 5). -/
def unlistedByte : Byte := 0

/-- One byte of a byte space (20_memory.md R76). -/
def memRead8 (m : ByteSpace) (a : Nat) : Byte := Cells.read unlistedByte m a

/-- `MemRead(S, a, 2)`, little-endian (R76). -/
def memRead16 (m : ByteSpace) (a : Nat) : Word16 := wordOfBytes (memRead8 m a) (memRead8 m (a + 1))

/-- `MemWrite(S, a, 1, v)` (R77). -/
def memWrite8 (m : ByteSpace) (a : Nat) (v : Byte) : ByteSpace := Cells.write unlistedByte m a v

/-- `MemWrite(S, a, 2, v)`, little-endian (R77). -/
def memWrite16 (m : ByteSpace) (a : Nat) (v : Word16) : ByteSpace :=
  memWrite8 (memWrite8 m a (v.extractLsb' 0 8)) (a + 1) (v.extractLsb' 8 8)

/-- The canonical form of every space of the machine: bytes of DIN, EOUT and both AUX, colours of
CANVAS and GRID, whose unlisted positions read as the sentinel (log 5, log 6). -/
def Memory.wf (s : State) : Bool :=
  Cells.wf unlistedByte Config.fileCap s.dec.din && Cells.wf unlistedByte Config.auxCap s.dec.aux
    && Cells.wf s.par.sentinel Config.canvasSize s.dec.canvas
    && Cells.wf unlistedByte Config.fileCap s.enc.eout
    && Cells.wf unlistedByte Config.auxCap s.enc.aux
    && Cells.wf s.par.sentinel Config.canvasSize s.enc.grid

/-! ## Colours -/

/-- `{R, G, B}` (00_scope.md R14). -/
def rgb (r g b : Byte) : Colour := r ++ g ++ b
/-- `c[23:16]` (R14). -/
def red (c : Colour) : Byte := c.extractLsb' 16 8
/-- `c[15:8]` (R14). -/
def green (c : Colour) : Byte := c.extractLsb' 8 8
/-- `c[7:0]` (R14). -/
def blue (c : Colour) : Byte := c.extractLsb' 0 8

/-- `FromDac`, for a 6-bit value (42_palette_and_colormap.md R181). -/
def fromDac (d : BitVec 6) : Byte := d.setWidth 8 <<< 2
/-- `ToDac` (42_palette_and_colormap.md R182). -/
def toDac (v : Byte) : BitVec 6 := (v >>> 2).setWidth 6
/-- A colour in DAC form at full depth (R181). -/
def fullDepth (c : DacColour) : Colour := rgb (fromDac c.r) (fromDac c.g) (fromDac c.b)

/-- The colour of the three bytes R, G, B at `a` (20_memory.md R78, 30_encoding.md R113). -/
def readTriplet (m : ByteSpace) (a : Nat) : Colour :=
  rgb (memRead8 m a) (memRead8 m (a + 1)) (memRead8 m (a + 2))

/-- Writes a colour as the three bytes R, G, B at `a` (R78, R113). -/
def writeTriplet (m : ByteSpace) (a : Nat) (c : Colour) : ByteSpace :=
  memWrite8 (memWrite8 (memWrite8 m a (red c)) (a + 1) (green c)) (a + 2) (blue c)

/-! ## Tables of 256 entries (10_state.md R55) -/

namespace Table

/-- Entry `i`. -/
def get {α : Type} (t : Vector α 256) (i : Byte) : α := t[i.toNat]'i.isLt

/-- The table with entry `i` replaced. -/
def set {α : Type} (t : Vector α 256) (i : Byte) (x : α) : Vector α 256 := t.set i.toNat x i.isLt

/-- The table whose entry `i` is `f i`. -/
def ofFn {α : Type} (f : Byte → α) : Vector α 256 :=
  ⟨((List.range 256).map fun k => f (BitVec.ofNat 8 k)).toArray, by simp⟩

end Table

/-- `CIM[i].valid <- 0` for all `i` (41_decoder_sequence.md R158, 42_palette_and_colormap.md R199). -/
def clearMap (m : Vector CimEntry 256) : Vector CimEntry 256 :=
  Table.ofFn fun i => { Table.get m i with valid := false }

/-- `Patch(P)` with the table of the instance (42_palette_and_colormap.md R188). -/
def patchPalette (table : Vector DacColour 58) (p : Vector Colour 256) : Vector Colour 256 :=
  Table.ofFn fun i =>
    if h : Config.patchFirst ≤ i.toNat ∧ i.toNat < Config.patchFirst + Config.patchCount then
      if Table.get p i = Config.black then
        fullDepth (table[i.toNat - Config.patchFirst]'(by
          simp only [Config.patchFirst, Config.patchCount] at h ⊢; omega))
      else Table.get p i
    else Table.get p i

/-- `Lookup(c, pos)` without its fault: the lowest valid index whose colour is `c`
(42_palette_and_colormap.md R200). -/
def lookupColour (m : Vector CimEntry 256) (c : Colour) : Option Byte :=
  ((List.range 256).map (BitVec.ofNat 8)).find? fun i =>
    (Table.get m i).valid && (Table.get m i).colour == c

/-! ## Faults -/

/-- The causes of 60_exceptions.md R260. -/
inductive Cause where
  | formatError
  | rangeError
  | missingPalette
  | unmappedColor
  | headerError
  | streamUnderrun
  | canvasOverrun
  | dimensionError
  | lengthOverflow
  | illegalCommand
deriving DecidableEq, Repr

/-- The code of a cause (60_exceptions.md R260). -/
def Cause.code : Cause → BitVec 4
  | .formatError => 1
  | .rangeError => 2
  | .missingPalette => 3
  | .unmappedColor => 4
  | .headerError => 5
  | .streamUnderrun => 6
  | .canvasOverrun => 7
  | .dimensionError => 8
  | .lengthOverflow => 9
  | .illegalCommand => 10

/-- How a sequence of an engine ends early: `raise <Cause>(epc)` of the spec, or a stop of the model. -/
inductive Stop where
  | raised (c : Cause) (epc : Nat)
  | stopped (f : Fault)
deriving DecidableEq, Repr

/-- The registers of one engine. -/
def State.regs (s : State) : Engine → EngineRegs
  | .dec => s.dec.toEngineRegs
  | .enc => s.enc.toEngineRegs

/-- The state with the registers of one engine replaced. -/
def State.setRegs (s : State) (e : Engine) (r : EngineRegs) : State :=
  match e with
  | .dec => { s with dec := { s.dec with toEngineRegs := r } }
  | .enc => { s with enc := { s.enc with toEngineRegs := r } }

/-- What fault entry does to the control registers (60_exceptions.md R270). -/
def EngineRegs.raised (r : EngineRegs) (c : Cause) (epc : Nat) : EngineRegs :=
  { r with cause := c.code, epc := BitVec.ofNat 17 epc, err := true, done := false, busy := false }

/-- Fault entry on engine `e`, for a RUN and for a reserved code (60_exceptions.md R270, R278): on ENC
`E_OUTLEN` becomes 0 too. A table command's fault is `State.tableFault`. -/
def State.faultEntry (s : State) (e : Engine) (c : Cause) (epc : Nat) : State :=
  match e with
  | .dec => { s with dec := { s.dec with toEngineRegs := s.dec.toEngineRegs.raised c epc } }
  | .enc => { s with enc := { s.enc with
      toEngineRegs := s.enc.toEngineRegs.raised c epc, outLen := 0 } }

/-- The fault of a table command on engine `e`: nothing but `STATUS`, `CAUSE` and `EPC` changes, so `E_OUTLEN`
stays (60_exceptions.md R272, 92_eei_decisions.md D22, log 14). -/
def State.tableFault (s : State) (e : Engine) (c : Cause) : State :=
  s.setRegs e ((s.regs e).raised c 0)

/-- What CLEAR does to the control registers (60_exceptions.md R276). -/
def EngineRegs.acknowledged (r : EngineRegs) : EngineRegs :=
  { r with err := false, done := false, cause := 0, epc := 0 }

/-- The acknowledgement of a fault or a result on engine `e` (60_exceptions.md R276). There is
nothing to restore. -/
def State.acknowledge (s : State) (e : Engine) : State :=
  match e with
  | .dec => { s with dec := { s.dec with toEngineRegs := s.dec.toEngineRegs.acknowledged } }
  | .enc => { s with enc := { s.enc with
      toEngineRegs := s.enc.toEngineRegs.acknowledged, outLen := 0 } }

/-- What a faulted RUN leaves of DEC's outputs: free values (60_exceptions.md R272, log 8). -/
def State.spoilDec (s : State) : State :=
  let n := s.free
  { s with
    dec := { s.dec with
      canvas := Cells.ofList s.par.sentinel Config.canvasSize (Config.freePixels n)
      cim := Config.freeMap n
      apal := Config.freeColours n
      hasPal := Config.freeBits n 16
      csLen := Config.freeBits (n + 1) 16
      aw := Config.freeBits (n + 2) 16
      ah := Config.freeBits (n + 3) 16
      sp := Config.freeBits (n + 4) 17
      csend := Config.freeBits (n + 5) 17
      plane := Config.freeBits (n + 6) 3
      cur := Config.freeBits (n + 7) 32
      word := Config.freeBits (n + 8) 16
      cnt := Config.freeBits (n + 9) 14
      idx := Config.freeBits (n + 10) 8 }
    free := n + 11 }

/-- What a faulted RUN leaves of ENC's outputs: free values (60_exceptions.md R272, log 8). -/
def State.spoilEnc (s : State) : State :=
  let n := s.free
  { s with
    enc := { s.enc with
      eout := Cells.ofList unlistedByte Config.fileCap (Config.freeBytes n)
      apal := Config.freeColours n
      hasPal := Config.freeBits n 16
      csLen := Config.freeBits (n + 1) 16
      plane := Config.freeBits (n + 2) 3
      pos := Config.freeBits (n + 3) 17
      base := Config.freeBits (n + 4) 17
      wp := Config.freeBits (n + 5) 17
      ph := Config.freeBits (n + 6) 17
      n := Config.freeBits (n + 7) 14
      row := Config.freeBits (n + 8) 8
      minc := Config.freeBits (n + 9) 9
      maxc := Config.freeBits (n + 10) 9
      any := Config.freeBits (n + 11) 1 == 1
      pending := Config.freeBits (n + 12) 9 }
    free := n + 13 }

/-- The outcome of a part of DEC's RUN from the state `s` it began in: fault entry acts on `s`,
because everything the part could have changed becomes a free value (R270, R272). -/
def State.afterDec (s : State) (r : Except Stop Decoder) : Host.Outcome State Fault Refusal :=
  match r with
  | .ok d => .next { s with dec := d }
  | .error (.raised c epc) => .next (s.faultEntry .dec c epc).spoilDec
  | .error (.stopped f) => .fault f

/-- The same for ENC's RUN (R270, R272). -/
def State.afterEnc (s : State) (r : Except Stop Encoder) : Host.Outcome State Fault Refusal :=
  match r with
  | .ok e => .next { s with enc := e }
  | .error (.raised c epc) => .next (s.faultEntry .enc c epc).spoilEnc
  | .error (.stopped f) => .fault f

end Sys2Proof.Machine
end

