-- ==== Sys2Proof/Machine/Flags.lean ====
section
/-! DEFINITION. The flags: there are no arithmetic flags (10_state.md R27), only the status bits of
each engine, written by the start and the finish of a host command, and the envelope of the table
commands (42_palette_and_colormap.md R193). -/

namespace Sys2Proof.Machine

/-- The start of a RUN (41_decoder_sequence.md R151, 43_encoder_runs.md R211). -/
def EngineRegs.startRun (r : EngineRegs) : EngineRegs :=
  { r with busy := true, done := false, err := false, cause := 0, epc := 0 }

/-- The finish of a RUN (41_decoder_sequence.md R160, 43_encoder_runs.md R228). -/
def EngineRegs.finishRun (r : EngineRegs) : EngineRegs := { r with busy := false, done := true }

/-- The start of a table command: `DONE` is left as it is (42_palette_and_colormap.md R193). -/
def EngineRegs.startTable (r : EngineRegs) : EngineRegs :=
  { r with busy := true, err := false, cause := 0, epc := 0 }

/-- The end of a table command (42_palette_and_colormap.md R193). -/
def EngineRegs.finishTable (r : EngineRegs) : EngineRegs := { r with busy := false }

/-- `STATUS` as the host reads it (10_state.md R40, R42). -/
def EngineRegs.status (r : EngineRegs) : BitVec 3 :=
  BitVec.ofBool r.err ++ BitVec.ofBool r.done ++ BitVec.ofBool r.busy

/-- `CTRL` as the host reads it (10_state.md R40, R41). -/
def EngineRegs.ctrl (r : EngineRegs) : BitVec 2 := BitVec.ofBool r.patchEn ++ BitVec.ofBool r.palv

/-- A host command is accepted only when `BUSY` is 0; else nothing changes
(70_reset_and_hazards.md R309, log 21). -/
def State.whenIdle (s : State) (e : Engine) (k : Host.Outcome State Fault Refusal) :
    Host.Outcome State Fault Refusal :=
  if (s.regs e).busy then .next s else k

/-- The envelope of every table command: acceptance, start, body, end; a body that faults leaves the
tables as they were (42_palette_and_colormap.md R193, 60_exceptions.md R272). -/
def State.tableCommand (s : State) (e : Engine) (body : EngineRegs → Except Cause EngineRegs) :
    Host.Outcome State Fault Refusal :=
  s.whenIdle e <|
    let r := (s.regs e).startTable
    match body r with
    | .ok r' => .next (s.setRegs e r'.finishTable)
    | .error c => .next ((s.setRegs e r).tableFault e c)

end Sys2Proof.Machine
end

