-- ==== Sys2Proof/Machine/Operands.lean ====
section
/-! DEFINITION. Every operand form: the index, count and colour operands of the host commands in ARG0
and ARG1 (30_encoding.md R112), and the bytes and words an engine reads from DIN
(40_decoder_commands.md R130, R133, R134). -/

namespace Sys2Proof.Machine

/-! ## Host command operands -/

/-- `ARG0[15:0]`, an index or a count (30_encoding.md R112). -/
def EngineRegs.operand0 (r : EngineRegs) : Nat := (r.arg0.extractLsb' 0 16).toNat

/-- `ARG1[23:0]`, a colour (30_encoding.md R112). -/
def EngineRegs.operandColour (r : EngineRegs) : Colour := r.arg1.extractLsb' 0 24

/-! ## Stream operands -/

/-- One byte of DIN; an offset outside the space stops the model (20_memory.md R71, R83, log 15). -/
def Decoder.dinByte (d : Decoder) (a : Nat) : Except Stop Byte :=
  if a < Config.fileCap then .ok (memRead8 d.din a) else .error (.stopped .dinOutsideSpace)

/-- One little-endian word of DIN (20_memory.md R76, R79). -/
def Decoder.dinWord (d : Decoder) (a : Nat) : Except Stop Word16 :=
  if a + 1 < Config.fileCap then .ok (memRead16 d.din a) else .error (.stopped .dinOutsideSpace)

/-- The command fetch without its dispatch: the bound, then `W`, `SP` and `CNT`
(40_decoder_commands.md R130). -/
def Decoder.fetchWord (d : Decoder) : Except Stop Decoder :=
  if d.sp.toNat + 2 > d.csend.toNat then .error (.raised .streamUnderrun d.sp.toNat)
  else match d.dinWord d.sp.toNat with
    | .ok w => .ok { d with word := w, sp := d.sp + 2, cnt := wordCount w }
    | .error st => .error st

/-- `PC0`, the offset of the command word that was fetched last (40_decoder_commands.md R130, log 19). -/
def Decoder.pc0 (d : Decoder) : Nat := d.sp.toNat - 2

/-- Reads one index byte of the stream into `IDX` (40_decoder_commands.md R133, R134). -/
def Decoder.readIndex (d : Decoder) (pc0 : Nat) : Except Stop Decoder :=
  if d.sp.toNat + 1 > d.csend.toNat then .error (.raised .streamUnderrun pc0)
  else match d.dinByte d.sp.toNat with
    | .ok b => .ok { d with idx := b, sp := d.sp + 1 }
    | .error st => .error st

end Sys2Proof.Machine
end

