-- ==== Sys2Proof/Machine/ColourMap.lean ====
section
/-! DEFINITION. The colour-index-map host commands (42_palette_and_colormap.md R197 to R199) over the
side-band format of 30_encoding.md R114. -/

namespace Sys2Proof.Machine

/-- Writes the record of index `i` as record `k` (30_encoding.md R114). -/
def writeRecord (m : ByteSpace) (k : Nat) (i : Byte) (c : Colour) : ByteSpace :=
  writeTriplet (memWrite8 m (4 * k) i) (4 * k + 1) c

/-- The records of the valid entries among `indices`, after `k` records: how many there are in all,
and the bytes (R197). -/
def storeRecords (map : Vector CimEntry 256) : List Byte → Nat → ByteSpace → Nat × ByteSpace
  | [], k, m => (k, m)
  | i :: rest, k, m =>
    if (Table.get map i).valid then
      storeRecords map rest (k + 1) (writeRecord m k i (Table.get map i).colour)
    else storeRecords map rest k m

/-- All indices in ascending order. -/
def allIndices : List Byte := (List.range 256).map (BitVec.ofNat 8)

/-- CIM_STORE: one record for each valid index, ascending; `RES` is the byte count (R197). -/
def execCimStore (e : Engine) (s : State) : Host.Outcome State Fault Refusal :=
  s.tableCommand e fun r =>
    let stored := storeRecords r.cim allIndices 0 r.aux
    .ok { r with aux := stored.2, res := BitVec.ofNat 32 (4 * stored.1) }

/-- Takes record `k` of AUX into the map (R198). -/
def loadRecord (aux : ByteSpace) (map : Vector CimEntry 256) (k : Nat) : Vector CimEntry 256 :=
  Table.set map (memRead8 aux (4 * k)) { valid := true, colour := readTriplet aux (4 * k + 1) }

/-- CIM_LOAD: empties the map and takes the records in order (R198). -/
def execCimLoad (e : Engine) (s : State) : Host.Outcome State Fault Refusal :=
  s.tableCommand e fun r =>
    if r.operand0 % 4 ≠ 0 then .error .formatError
    else if r.operand0 > Config.auxCap then .error .formatError
    else .ok { r with
      cim := (List.range (r.operand0 / 4)).foldl (loadRecord r.aux) (clearMap r.cim) }

/-- CIM_CLEAR: every entry becomes invalid (R199). -/
def execCimClear (e : Engine) (s : State) : Host.Outcome State Fault Refusal :=
  s.tableCommand e fun r => .ok { r with cim := clearMap r.cim }

end Sys2Proof.Machine
end

