-- ==== Sys2Proof/Machine/Control.lean ====
section
/-! DEFINITION. The control host commands NOP and CLEAR (60_exceptions.md R276, R277). -/

namespace Sys2Proof.Machine

/-- NOP: nothing changes, whatever the state (R277). -/
def execNop (_e : Engine) (s : State) : Host.Outcome State Fault Refusal := .next s

/-- CLEAR: acknowledges a fault or a result, when the engine is idle (R276). -/
def execClear (e : Engine) (s : State) : Host.Outcome State Fault Refusal :=
  s.whenIdle e (.next (s.acknowledge e))

end Sys2Proof.Machine
end

