-- ==== Sys2Proof/Machine/DecodeRun.lean ====
section
/-! DEFINITION. RUN on DEC (41_decoder_sequence.md R150): everything up to the plane loop, and the
finish. The commands of the plane loop are steps of their own (00_scope.md R11, log 2). -/

namespace Sys2Proof.Machine

/-- The header step (R152). -/
def Decoder.readHeader (d : Decoder) : Except Stop Decoder :=
  if d.inLen.toNat < Config.headerBytes then .error (.raised .streamUnderrun 0)
  else .ok { d with
    hasPal := memRead16 d.din 0
    csLen := memRead16 d.din 2
    aw := memRead16 d.din 4
    ah := memRead16 d.din 6 }

/-- The header checks, in the order of R153. -/
def Decoder.checkHeader (d : Decoder) : Except Stop Decoder :=
  if d.hasPal.toNat > 1 then .error (.raised .headerError 0)
  else if d.aw.toNat > Config.virtualWidth then .error (.raised .headerError 4)
  else if d.ah.toNat > Config.virtualHeight then .error (.raised .headerError 6)
  else .ok d

/-- The offset of the first of `n` embedded palette bytes from `a` on that is above 63 (R155). -/
def firstBadDac (din : ByteSpace) : (n a : Nat) → Option Nat
  | 0, _ => none
  | n + 1, a => if (memRead8 din a).toNat > 63 then some a else firstBadDac din n (a + 1)

/-- Entry `i` of the embedded palette at full depth (R155, 30_encoding.md R103). -/
def embeddedColour (din : ByteSpace) (i : Byte) : Colour :=
  let a := Config.headerBytes + 3 * i.toNat
  rgb (fromDac ((memRead8 din a).setWidth 6)) (fromDac ((memRead8 din (a + 1)).setWidth 6))
    (fromDac ((memRead8 din (a + 2)).setWidth 6))

/-- The embedded palette ingest (R155). -/
def Decoder.ingestPalette (d : Decoder) : Except Stop Decoder :=
  if d.inLen.toNat < Config.headerBytes + Config.paletteBytes then
    .error (.raised .streamUnderrun Config.headerBytes)
  else match firstBadDac d.din Config.paletteBytes Config.headerBytes with
    | some a => .error (.raised .headerError a)
    | none => .ok { d with apal := Table.ofFn (embeddedColour d.din) }

/-- The palette selection (R154). -/
def Decoder.selectPalette (d : Decoder) : Except Stop Decoder :=
  if d.hasPal = 0 then
    if d.palv then .ok { d with apal := d.xpal } else .error (.raised .missingPalette 0)
  else d.ingestPalette

/-- The patch of the active palette (R156). -/
def Decoder.patchActive (table : Vector DacColour 58) (d : Decoder) : Decoder :=
  if d.patchEn then { d with apal := patchPalette table d.apal } else d

/-- `CS_START`, where the command stream begins (R154, 20_memory.md R82). -/
def Decoder.csStart (d : Decoder) : Nat :=
  if d.hasPal = 0 then Config.headerBytes else Config.headerBytes + Config.paletteBytes

/-- The region bound (R157). -/
def Decoder.boundRegion (d : Decoder) : Except Stop Decoder :=
  let e := d.csStart + d.csLen.toNat
  if d.inLen.toNat < e then .error (.raised .streamUnderrun 2)
  else .ok { d with csend := BitVec.ofNat 17 e, sp := BitVec.ofNat 17 d.csStart }

/-- The canvas all sentinel and the map empty, then the first plane (R158, R159). -/
def Decoder.openPlanes (d : Decoder) : Decoder :=
  { d with canvas := [], cim := clearMap d.cim, plane := 0, cur := 0 }

/-- RUN on DEC up to its plane loop (R151 to R159). -/
def Decoder.setup (table : Vector DacColour 58) (d : Decoder) : Except Stop Decoder := do
  let d ← ({ d with toEngineRegs := d.toEngineRegs.startRun } : Decoder).readHeader
  let d ← d.checkHeader
  let d ← d.selectPalette
  let d ← (d.patchActive table).boundRegion
  return d.openPlanes

/-- RUN on DEC, when it is idle (R150, R151). -/
def execRunDec (s : State) : Host.Outcome State Fault Refusal :=
  s.whenIdle .dec (s.afterDec (s.dec.setup s.par.patchTable))

/-- The finish step, when all four planes are done (R160). -/
def Decoder.finish (d : Decoder) : Decoder := { d with toEngineRegs := d.toEngineRegs.finishRun }

end Sys2Proof.Machine
end

