-- ==== Sys2Proof/Machine/EncodeRun.lean ====
section
/-! DEFINITION. RUN on ENC (43_encoder_runs.md, 44_encoder_visibility.md): the start as the meaning of
the host command, and the rest of the sequence as the encoder's own steps, one run, one end of plane,
one descriptor row, or the finish at a time (00_scope.md R11, log 2). -/

namespace Sys2Proof.Machine

/-! ## The input view (43_encoder_runs.md R213) -/

/-- Whether a canvas position lies inside the grid's bounds (R213, 00_scope.md R15). -/
def Encoder.inGrid (e : Encoder) (pos : Nat) : Bool :=
  decide (pos % Config.virtualWidth < e.gw.toNat) && decide (pos / Config.virtualWidth < e.gh.toNat)

/-- `Pix(pos)` (R213). -/
def Encoder.pix (e : Encoder) (sent : Colour) (pos : Nat) : Colour :=
  if e.inGrid pos then Cells.read sent e.grid pos else sent

/-- `Transparent(pos)`: outside the grid, or of the sentinel's colour (R213). -/
def Encoder.transparent (e : Encoder) (sent : Colour) (pos : Nat) : Bool :=
  !e.inGrid pos || Cells.read sent e.grid pos == sent

/-! ## Emit primitives (43_encoder_runs.md R215) -/

/-- One byte of EOUT; an offset outside the space stops the model (20_memory.md R83, log 15). -/
def Encoder.outByte (e : Encoder) (a : Nat) (v : Byte) : Except Stop Encoder :=
  if a < Config.fileCap then .ok { e with eout := memWrite8 e.eout a v }
  else .error (.stopped .eoutOutsideSpace)

/-- One little-endian word of EOUT (20_memory.md R77). -/
def Encoder.outWord (e : Encoder) (a : Nat) (v : Word16) : Except Stop Encoder :=
  if a + 1 < Config.fileCap then .ok { e with eout := memWrite16 e.eout a v }
  else .error (.stopped .eoutOutsideSpace)

/-- Whether `k` more bytes fit the 16-bit length of the stream (R215). -/
def Encoder.fits (e : Encoder) (k : Nat) : Bool :=
  decide (e.wp.toNat + k ≤ e.base.toNat + Config.streamMax)

/-- `Emit8` (R215). -/
def Encoder.emit8 (e : Encoder) (v : Byte) : Except Stop Encoder :=
  if e.fits 1 then match e.outByte e.wp.toNat v with
    | .ok e' => .ok { e' with wp := e.wp + 1 }
    | .error st => .error st
  else .error (.raised .lengthOverflow e.pos.toNat)

/-- `Emit16` (R215). -/
def Encoder.emit16 (e : Encoder) (v : Word16) : Except Stop Encoder :=
  if e.fits 2 then match e.outWord e.wp.toNat v with
    | .ok e' => .ok { e' with wp := e.wp + 2 }
    | .error st => .error st
  else .error (.raised .lengthOverflow e.pos.toNat)

/-- `Reserve16`: the two bytes are written later (R215, R220, log 16). -/
def Encoder.reserve16 (e : Encoder) : Except Stop Encoder :=
  if e.fits 2 then .ok { e with ph := e.wp, wp := e.wp + 2 }
  else .error (.raised .lengthOverflow e.pos.toNat)

/-! ## The plane walk (43_encoder_runs.md R216 to R221) -/

/-- The counting loop of SkipRun, at most `k` positions (R217). -/
def Encoder.skipLoop (sent : Colour) : Nat → Encoder → Encoder
  | 0, e => e
  | k + 1, e =>
    if decide (e.pos.toNat < Config.canvasSize) && e.transparent sent e.pos.toNat then
      Encoder.skipLoop sent k { e with n := e.n + 1, pos := e.pos + 4 }
    else e

/-- SkipRun: a run that reaches the end of the plane emits nothing (R217, R218). -/
def Encoder.skipRun (e : Encoder) (sent : Colour) : Except Stop Encoder :=
  let e' := Encoder.skipLoop sent Config.countMax { e with n := 0 }
  if e'.pos.toNat < Config.canvasSize then e'.emit16 (commandWord 1 e'.n) else .ok e'

/-- The loop of CopyRun, at most `k` positions: lookup, then the index byte (R219). -/
def Encoder.copyLoop (sent : Colour) : Nat → Encoder → Except Stop Encoder
  | 0, e => .ok e
  | k + 1, e =>
    if decide (e.pos.toNat < Config.canvasSize) && !e.transparent sent e.pos.toNat then
      match lookupColour e.cim (e.pix sent e.pos.toNat) with
      | none => .error (.raised .unmappedColor e.pos.toNat)
      | some i => match e.emit8 i with
        | .ok e' => Encoder.copyLoop sent k { e' with n := e'.n + 1, pos := e'.pos + 4 }
        | .error st => .error st
    else .ok e

/-- CopyRun: the placeholder, the indices, then the count into the placeholder (R219, R220). -/
def Encoder.copyRun (e : Encoder) (sent : Colour) : Except Stop Encoder :=
  match e.reserve16 with
  | .ok e1 => match Encoder.copyLoop sent Config.countMax { e1 with n := 0 } with
    | .ok e2 => e2.outWord e2.ph.toNat (commandWord 3 e2.n)
    | .error st => .error st
  | .error st => .error st

/-- The length and the header (R224, R225). -/
def Encoder.writeHeader (e : Encoder) : Encoder :=
  let len := BitVec.ofNat 16 (e.wp.toNat - e.base.toNat)
  { e with
    csLen := len
    eout := memWrite16 (memWrite16 (memWrite16 (memWrite16 e.eout 0 e.hasPal) 2 len) 4 e.gw) 6 e.gh }

/-- A palette in DAC form as the 768 bytes after the header (R226, 30_encoding.md R103). -/
def embedBytes (p : Vector Colour 256) (eout : ByteSpace) : ByteSpace :=
  (List.range 256).foldl (fun m i =>
    let c := Table.get p (BitVec.ofNat 8 i)
    let a := Config.headerBytes + 3 * i
    memWrite8 (memWrite8 (memWrite8 m a ((toDac (red c)).setWidth 8))
      (a + 1) ((toDac (green c)).setWidth 8)) (a + 2) ((toDac (blue c)).setWidth 8)) eout

/-- The palette embed, only when a palette is embedded (R226). -/
def Encoder.embedPalette (e : Encoder) (table : Vector DacColour 58) : Encoder :=
  if e.hasPal = 1 then
    let p := if e.patchEn then patchPalette table e.xpal else e.xpal
    { e with apal := p, eout := embedBytes p e.eout }
  else e

/-- End of plane: the EOP word, then the next plane; after the fourth the length, header and palette,
and the descriptor begins (R216, R221, R224 to R226, 44_encoder_visibility.md R244). -/
def Encoder.endPlane (e : Encoder) (table : Vector DacColour 58) : Except Stop Encoder :=
  match e.emit16 0 with
  | .ok e' =>
    let p := e'.plane + 1
    if p.toNat < Config.planes then .ok { e' with plane := p, pos := p.setWidth 17 }
    else .ok { (e'.writeHeader.embedPalette table) with plane := p, row := 0, pending := 0 }
  | .error st => .error st

/-! ## The visibility descriptor (44_encoder_visibility.md) -/

/-- One column of the row scan: `ANY`, `MINC`, `MAXC` (R241). -/
def scanColumn (opaqueAt : Nat → Bool) (acc : Bool × Nat × Nat) (x : Nat) : Bool × Nat × Nat :=
  if opaqueAt x then (true, if acc.1 then acc.2.1 else x, x + 1) else acc

/-- The row scan over all 320 columns (R241). -/
def Encoder.scanRow (e : Encoder) (sent : Colour) : Encoder :=
  let r := (List.range Config.virtualWidth).foldl
    (scanColumn fun x => !e.transparent sent (Config.virtualWidth * e.row.toNat + x))
    (false, e.minc.toNat, e.maxc.toNat)
  { e with any := r.1, minc := BitVec.ofNat 9 r.2.1, maxc := BitVec.ofNat 9 r.2.2 }

/-- `s` of R243: `MINC` rounded down to a multiple of 4. -/
def Encoder.rowSkip (e : Encoder) : Nat := e.minc.toNat / 4 * 4

/-- `h` of R243: `MAXC` rounded up to a multiple of 4. -/
def Encoder.rowHide (e : Encoder) : Nat := (e.maxc.toNat + 3) / 4 * 4

/-- `storedSkip` of the scanned row (R242, R243). -/
def Encoder.storedSkip (e : Encoder) : Nat :=
  if e.any then (e.pending.toNat + e.rowSkip) / 4
  else (e.pending.toNat + Config.virtualWidth) / 4

/-- `storedHide` of the scanned row (R242, R243). -/
def Encoder.storedHide (e : Encoder) : Nat := if e.any then (e.rowHide - e.rowSkip) / 4 else 0

/-- `PENDING` after the scanned row (R242, R243). -/
def Encoder.nextPending (e : Encoder) : Nat :=
  if e.any then Config.virtualWidth - e.rowHide else 0

/-- One row of the descriptor: scan, store, carry (R241 to R245). -/
def Encoder.rowStep (e : Encoder) (sent : Colour) : Except Stop Encoder :=
  let e1 := e.scanRow sent
  let a := e1.wp.toNat + 4 * e1.row.toNat
  match e1.outWord a (BitVec.ofNat 16 e1.storedSkip) with
  | .ok e2 => match e2.outWord (a + 2) (BitVec.ofNat 16 e1.storedHide) with
    | .ok e3 => .ok { e3 with pending := BitVec.ofNat 9 e1.nextPending, row := e1.row + 1 }
    | .error st => .error st
  | .error st => .error st

/-! ## The sequence -/

/-- The total length and the finish (43_encoder_runs.md R227, R228). -/
def Encoder.finish (e : Encoder) : Encoder :=
  { e with
    toEngineRegs := e.toEngineRegs.finishRun
    outLen := BitVec.ofNat 17 (e.base.toNat + e.csLen.toNat + Config.descriptorBytes) }

/-- One step of a running encoder (R210, R216). -/
def Encoder.step (e : Encoder) (par : Config.Params) : Except Stop Encoder :=
  if e.plane.toNat < Config.planes then
    if e.pos.toNat < Config.canvasSize then
      if e.transparent par.sentinel e.pos.toNat then e.skipRun par.sentinel
      else e.copyRun par.sentinel
    else e.endPlane par.patchTable
  else if e.row.toNat < Config.virtualHeight then e.rowStep par.sentinel
  else .ok e.finish

/-- RUN on ENC up to its plane walk: start, dimension check, output base (R211, R212, R214, R216). -/
def Encoder.setup (e : Encoder) : Except Stop Encoder :=
  if e.gw.toNat > Config.virtualWidth then .error (.raised .dimensionError 0)
  else if e.gh.toNat > Config.virtualHeight then .error (.raised .dimensionError 0)
  else
    let base : BitVec 17 := if e.palv then 776 else 8
    .ok { e with
      toEngineRegs := { e.toEngineRegs.startRun with hasPal := if e.palv then 1 else 0 }
      outLen := 0
      base := base
      wp := base
      plane := 0
      pos := 0 }

/-- RUN on ENC, when it is idle (R210, R211). -/
def execRunEnc (s : State) : Host.Outcome State Fault Refusal :=
  s.whenIdle .enc (s.afterEnc s.enc.setup)

end Sys2Proof.Machine
end

