-- ==== Sys2Proof/Machine/Palette.lean ====
section
/-! DEFINITION. The palette host commands (42_palette_and_colormap.md R184 to R190). Each body checks
its fault before it changes anything (R193). -/

namespace Sys2Proof.Machine

/-- PAL_GET: `RES <- zext_32(XPAL[idx])` (R187). -/
def execPalGet (e : Engine) (s : State) : Host.Outcome State Fault Refusal :=
  s.tableCommand e fun r =>
    if r.operand0 > 255 then .error .rangeError
    else .ok { r with res := (Table.get r.xpal (BitVec.ofNat 8 r.operand0)).setWidth 32 }

/-- PAL_SET: `XPAL[idx] <- c` (R187). -/
def execPalSet (e : Engine) (s : State) : Host.Outcome State Fault Refusal :=
  s.tableCommand e fun r =>
    if r.operand0 > 255 then .error .rangeError
    else .ok { r with xpal := Table.set r.xpal (BitVec.ofNat 8 r.operand0) r.operandColour }

/-- The palette of the first `n` bytes of a flat file image, black beyond them (R184). -/
def flatPalette (aux : ByteSpace) (n : Nat) : Vector Colour 256 :=
  Table.ofFn fun i => if i.toNat < n / 3 then readTriplet aux (3 * i.toNat) else Config.black

/-- PAL_LOAD_FLAT: parses a flat palette file image (R184). -/
def execPalLoadFlat (e : Engine) (s : State) : Host.Outcome State Fault Refusal :=
  s.tableCommand e fun r =>
    if r.operand0 % 3 ≠ 0 then .error .formatError
    else if r.operand0 > Config.paletteBytes then .error .formatError
    else .ok { r with xpal := flatPalette r.aux r.operand0, palv := true }

/-- PAL_LOAD_LIST: constructs a palette from exactly 256 colours (R185). -/
def execPalLoadList (e : Engine) (s : State) : Host.Outcome State Fault Refusal :=
  s.tableCommand e fun r =>
    if r.operand0 ≠ 256 then .error .formatError
    else .ok { r with xpal := Table.ofFn fun i => readTriplet r.aux (3 * i.toNat), palv := true }

/-- A palette as the 768 bytes of a flat file image, written over AUX (R186). -/
def storePalette (p : Vector Colour 256) (aux : ByteSpace) : ByteSpace :=
  (List.range 256).foldl (fun m i => writeTriplet m (3 * i) (Table.get p (BitVec.ofNat 8 i))) aux

/-- PAL_STORE_FLAT: serialises XPAL (R186). -/
def execPalStoreFlat (e : Engine) (s : State) : Host.Outcome State Fault Refusal :=
  s.tableCommand e fun r => .ok { r with aux := storePalette r.xpal r.aux }

/-- PAL_PATCH: `XPAL <- Patch(XPAL)`, whatever PATCH_EN (R189). -/
def execPalPatch (e : Engine) (s : State) : Host.Outcome State Fault Refusal :=
  s.tableCommand e fun r => .ok { r with xpal := patchPalette s.par.patchTable r.xpal }

/-- PAL_CLEAR: an all-black palette that is not supplied (R190). -/
def execPalClear (e : Engine) (s : State) : Host.Outcome State Fault Refusal :=
  s.tableCommand e fun r => .ok { r with xpal := Table.ofFn fun _ => Config.black, palv := false }

end Sys2Proof.Machine
end

