-- ==== Sys2Proof/Machine/Stream.lean ====
section
/-! DEFINITION. The four stream commands (40_decoder_commands.md R131 to R135). A meaning acts on the
state after the fetch of its command word: `SP` is past the word, and the word's own offset, the
location of a fault, is `PC0` (R130). -/

namespace Sys2Proof.Machine

/-- `WritePixel(pos, idx)` (R135). -/
def Decoder.writePixel (d : Decoder) (sent : Colour) (pc0 pos : Nat) (i : Byte) :
    Except Stop Decoder :=
  if pos ≥ Config.canvasSize then .error (.raised .canvasOverrun pc0)
  else
    let c := Table.get d.apal i
    .ok { d with
      canvas := Cells.write sent d.canvas pos c
      cim := Table.set d.cim i { valid := true, colour := c } }

/-- One position written at the cursor, and the cursor moved on by the stride (R133, R134). -/
def Decoder.stamp (d : Decoder) (sent : Colour) (pc0 : Nat) (i : Byte) : Except Stop Decoder :=
  match d.writePixel sent pc0 d.cur.toNat i with
  | .ok d' => .ok { d' with cur := d'.cur + 4 }
  | .error st => .error st

/-- The loop of REPEAT: `k` positions with one index (R133). -/
def Decoder.repeatLoop (sent : Colour) (pc0 : Nat) (i : Byte) : Nat → Decoder → Except Stop Decoder
  | 0, d => .ok d
  | k + 1, d => match d.stamp sent pc0 i with
    | .ok d' => Decoder.repeatLoop sent pc0 i k d'
    | .error st => .error st

/-- The loop of COPY: `k` elements, each an index byte read and then written (R134). -/
def Decoder.copyLoop (sent : Colour) (pc0 : Nat) : Nat → Decoder → Except Stop Decoder
  | 0, d => .ok d
  | k + 1, d => match d.readIndex pc0 with
    | .ok d' => match d'.stamp sent pc0 d'.idx with
      | .ok d'' => Decoder.copyLoop sent pc0 k d''
      | .error st => .error st
    | .error st => .error st

/-- EOP on the engine: the next plane, and its cursor at the plane offset (R131). -/
def Decoder.endPlane (d : Decoder) : Decoder :=
  let p := d.plane + 1
  { d with plane := p, cur := if p.toNat < Config.planes then p.setWidth 32 else d.cur }

/-- SKIP on the engine (R132). -/
def Decoder.skipPositions (d : Decoder) (count : Nat) : Decoder :=
  { d with cur := d.cur + 4 * BitVec.ofNat 32 count }

/-- EOP: its count is ignored (R131). -/
def execEop (_count : Nat) (s : State) : Host.Outcome State Fault Refusal :=
  s.afterDec (.ok s.dec.endPlane)

/-- SKIP: the cursor moves, nothing is written, nothing faults (R132). -/
def execSkip (count : Nat) (s : State) : Host.Outcome State Fault Refusal :=
  s.afterDec (.ok (s.dec.skipPositions count))

/-- REPEAT: reads the index byte, for a count of 0 too, then writes it `count` times (R133). -/
def execRepeat (count : Nat) (s : State) : Host.Outcome State Fault Refusal :=
  s.afterDec <| match s.dec.readIndex s.dec.pc0 with
    | .ok d => Decoder.repeatLoop s.par.sentinel s.dec.pc0 d.idx count d
    | .error st => .error st

/-- COPY: `count` index bytes, each written as it is read (R134). -/
def execCopy (count : Nat) (s : State) : Host.Outcome State Fault Refusal :=
  s.afterDec (Decoder.copyLoop s.par.sentinel s.dec.pc0 count s.dec)

end Sys2Proof.Machine
end

