-- ==== Sys2Proof/Machine/Dispatch.lean ====
section
/-! DEFINITION. Which meaning each instruction has. -/

namespace Sys2Proof.Machine

def exec (i : Instr) (s : State) : Host.Outcome State Fault Refusal :=
  match i with
  | .eop count => Sys2Proof.Machine.execEop count s
  | .skip count => Sys2Proof.Machine.execSkip count s
  | .repeatRun count => Sys2Proof.Machine.execRepeat count s
  | .copyRun count => Sys2Proof.Machine.execCopy count s
  | .nop e => Sys2Proof.Machine.execNop e s
  | .runDec => Sys2Proof.Machine.execRunDec s
  | .runEnc => Sys2Proof.Machine.execRunEnc s
  | .clear e => Sys2Proof.Machine.execClear e s
  | .palGet e => Sys2Proof.Machine.execPalGet e s
  | .palSet e => Sys2Proof.Machine.execPalSet e s
  | .palLoadFlat e => Sys2Proof.Machine.execPalLoadFlat e s
  | .palLoadList e => Sys2Proof.Machine.execPalLoadList e s
  | .palStoreFlat e => Sys2Proof.Machine.execPalStoreFlat e s
  | .palPatch e => Sys2Proof.Machine.execPalPatch e s
  | .palClear e => Sys2Proof.Machine.execPalClear e s
  | .cimStore e => Sys2Proof.Machine.execCimStore e s
  | .cimLoad e => Sys2Proof.Machine.execCimLoad e s
  | .cimClear e => Sys2Proof.Machine.execCimClear e s

end Sys2Proof.Machine
end

