-- ==== Sys2Proof/Machine/HostPort.lean ====
section
/-! DEFINITION. What the host does to the machine besides issuing commands: reads and writes of
registers (10_state.md R40 to R50), spaces and tables (10_state.md R55, R60, 20_memory.md R71 to R75,
R83), and the reset event (70_reset_and_hazards.md R300). While an engine is busy only its STATUS may
be read; every other access is refused with no change (70_reset_and_hazards.md R312, log 11). -/

namespace Sys2Proof.Machine

/-- What the host's read returned goes where the model keeps it (log 10). -/
def State.returned (s : State) (v : Word32) : State := { s with rdata := v }

/-- A refused read: nothing changes, and the value read is unspecified (20_memory.md R83, log 10). -/
def State.returnedFree (s : State) : State :=
  { s with rdata := Config.freeBits s.free 32, free := s.free + 1 }

/-- The registers both engines have at the same numbers (10_state.md R40); numbers 13 and above, and
CMD, read 0 (R49, R50). -/
def EngineRegs.readReg (r : EngineRegs) (number : Nat) : Word32 :=
  match number with
  | 1 => r.ctrl.setWidth 32
  | 2 => r.status.setWidth 32
  | 3 => r.cause.setWidth 32
  | 4 => r.epc.setWidth 32
  | 5 => r.arg0
  | 6 => r.arg1
  | 7 => r.res
  | 9 => r.hasPal.setWidth 32
  | 10 => r.csLen.setWidth 32
  | _ => 0

/-- Register `number` of an engine as the host reads it (10_state.md R40). -/
def State.readReg (s : State) (e : Engine) (number : Nat) : Word32 :=
  match e, number with
  | .dec, 8 => s.dec.inLen.setWidth 32
  | .dec, 11 => s.dec.aw.setWidth 32
  | .dec, 12 => s.dec.ah.setWidth 32
  | .enc, 8 => s.enc.outLen.setWidth 32
  | .enc, 11 => s.enc.gw.setWidth 32
  | .enc, 12 => s.enc.gh.setWidth 32
  | e, n => (s.regs e).readReg n

/-- A host write of a register both engines have: CTRL, ARG0, ARG1; every other is read only
(10_state.md R40, R41, R45). -/
def EngineRegs.writeReg (r : EngineRegs) (number : Nat) (v : Word32) : EngineRegs :=
  match number with
  | 1 => { r with palv := v.getLsbD 0, patchEn := v.getLsbD 1 }
  | 5 => { r with arg0 := v }
  | 6 => { r with arg1 := v }
  | _ => r

/-- `min(value[16:0], FILE_CAP)`, what a write of `D_INLEN` stores (10_state.md R46). -/
def storedLength (v : Word32) : BitVec 17 :=
  BitVec.ofNat 17 (min (v.extractLsb' 0 17).toNat Config.fileCap)

/-- A host write of register `number`, CMD excepted (10_state.md R40, R46, R48). -/
def State.writeReg (s : State) (e : Engine) (number : Nat) (v : Word32) : State :=
  match e, number with
  | .dec, 8 => { s with dec := { s.dec with inLen := storedLength v } }
  | .enc, 11 => { s with enc := { s.enc with gw := v.extractLsb' 0 16 } }
  | .enc, 12 => { s with enc := { s.enc with gh := v.extractLsb' 0 16 } }
  | e, n => s.setRegs e ((s.regs e).writeReg n v)

/-- The engine a space belongs to (20_memory.md R70). -/
def Space.engine : Space → Engine
  | .din => .dec
  | .canvas => .dec
  | .grid => .enc
  | .eout => .enc
  | .aux e => e
  | .xpal e => e
  | .apal e => e
  | .cim e => e

/-- How many addresses a space has (10_state.md R55, R60). -/
def Space.size : Space → Nat
  | .din => Config.fileCap
  | .canvas => Config.canvasSize
  | .grid => Config.canvasSize
  | .eout => Config.fileCap
  | .aux _ => Config.auxCap
  | .xpal _ => 256
  | .apal _ => 256
  | .cim _ => 256

/-- What the host may read (10_state.md R55, R60, log 9). -/
def Space.hostReads : Space → Bool
  | .din => false
  | .canvas => true
  | .grid => false
  | .eout => true
  | .aux _ => true
  | .xpal _ => true
  | .apal _ => true
  | .cim _ => true

/-- What the host may write (10_state.md R55, R60, 20_memory.md R74, log 9). -/
def Space.hostWrites : Space → Bool
  | .din => true
  | .canvas => false
  | .grid => true
  | .eout => false
  | .aux _ => true
  | .xpal _ => true
  | .apal _ => false
  | .cim _ => true

/-- Whether a canvas position lies in the crop window (41_decoder_sequence.md R161, log 23). -/
def Decoder.inWindow (d : Decoder) (pos : Nat) : Bool :=
  decide (pos % Config.virtualWidth < d.aw.toNat) && decide (pos / Config.virtualWidth < d.ah.toNat)

/-- A map entry as the host sees it: `valid` above the 24 bits of the colour (log 9). -/
def CimEntry.toWord (c : CimEntry) : Word32 := (BitVec.ofBool c.valid ++ c.colour).setWidth 32

/-- What a space holds at an address, as the host reads it (10_state.md R60). -/
def State.readSpace (s : State) (space : Space) (a : Nat) : Word32 :=
  match space with
  | .din => (memRead8 s.dec.din a).setWidth 32
  | .canvas => (Cells.read s.par.sentinel s.dec.canvas a).setWidth 32
  | .grid => (Cells.read s.par.sentinel s.enc.grid a).setWidth 32
  | .eout => (memRead8 s.enc.eout a).setWidth 32
  | .aux e => (memRead8 (s.regs e).aux a).setWidth 32
  | .xpal e => (Table.get (s.regs e).xpal (BitVec.ofNat 8 a)).setWidth 32
  | .apal e => (Table.get (s.regs e).apal (BitVec.ofNat 8 a)).setWidth 32
  | .cim e => CimEntry.toWord (Table.get (s.regs e).cim (BitVec.ofNat 8 a))

/-- A host write into a space: the low bits of the value (10_state.md R60). A space the host may not
write is left as it is. -/
def State.writeSpace (s : State) (space : Space) (a : Nat) (v : Word32) : State :=
  match space with
  | .din => { s with dec := { s.dec with din := memWrite8 s.dec.din a (v.extractLsb' 0 8) } }
  | .canvas => s
  | .grid => { s with enc := { s.enc with
      grid := Cells.write s.par.sentinel s.enc.grid a (v.extractLsb' 0 24) } }
  | .eout => s
  | .aux e => s.setRegs e { s.regs e with aux := memWrite8 (s.regs e).aux a (v.extractLsb' 0 8) }
  | .xpal e => s.setRegs e { s.regs e with
      xpal := Table.set (s.regs e).xpal (BitVec.ofNat 8 a) (v.extractLsb' 0 24) }
  | .apal _ => s
  | .cim e => s.setRegs e { s.regs e with
      cim := Table.set (s.regs e).cim (BitVec.ofNat 8 a)
        { valid := v.getLsbD 24, colour := v.extractLsb' 0 24 } }

/-- A register read: while the engine is busy only STATUS (70_reset_and_hazards.md R312). -/
def State.hostReadReg (s : State) (e : Engine) (number : Nat) : State :=
  if (s.regs e).busy && number != 2 then s.returnedFree else s.returned (s.readReg e number)

/-- A register write, CMD excepted: refused while the engine is busy (R312). -/
def State.hostWriteReg (s : State) (e : Engine) (number : Nat) (v : Word32) : State :=
  if (s.regs e).busy then s else s.writeReg e number v

/-- Whether the host may read a space at an address (20_memory.md R83, 41_decoder_sequence.md R161,
70_reset_and_hazards.md R312). -/
def State.mayRead (s : State) (space : Space) (a : Nat) : Bool :=
  !(s.regs space.engine).busy && space.hostReads && decide (a < space.size)
    && (space != .canvas || s.dec.inWindow a)

/-- Whether the host may write a space at an address (20_memory.md R83, 70_reset_and_hazards.md R312). -/
def State.mayWrite (s : State) (space : Space) (a : Nat) : Bool :=
  !(s.regs space.engine).busy && space.hostWrites && decide (a < space.size)

/-- A read of a space. -/
def State.hostRead (s : State) (space : Space) (a : Nat) : State :=
  if s.mayRead space a then s.returned (s.readSpace space a) else s.returnedFree

/-- A write of a space. -/
def State.hostWrite (s : State) (space : Space) (a : Nat) (v : Word32) : State :=
  if s.mayWrite space a then s.writeSpace space a v else s

/-- The reset event on a running instance: the values after reset, the parameters of the instance kept
(70_reset_and_hazards.md R300, log 18). -/
def State.resetEvent (s : State) : State :=
  { State.reset with par := s.par, agenda := s.agenda, rdata := s.rdata, free := s.free }

end Sys2Proof.Machine
end

