-- ==== Sys2Proof/Machine/Fetch.lean ====
section
/-! DEFINITION. What the next step does: which agent moves, which instruction it runs and in which
state, or what a step that runs no instruction answers. -/

namespace Sys2Proof.Machine

/-- What the next step is. -/
inductive Fetched where
  /-- It runs instruction `i` in state `s`. -/
  | run (i : Instr) (s : State)
  /-- It runs no instruction and answers `o`. -/
  | answer (o : Host.Outcome State Fault Refusal)

/-- A step of DEC: the fetch of the next stream command while `PLANE < 4`, else the finish
(41_decoder_sequence.md R159, R160, 40_decoder_commands.md R130). An idle engine has no step to take
(60_exceptions.md R283). -/
def State.fetchDec (s : State) : Fetched :=
  if s.dec.busy then
    if s.dec.plane.toNat < Config.planes then
      match s.dec.fetchWord with
      | .ok d => .run (decodeWord d.word) { s with dec := d }
      | .error st => .answer (s.afterDec (.error st))
    else .answer (s.afterDec (.ok s.dec.finish))
  else .answer (.next s)

/-- A step of ENC (43_encoder_runs.md R210); it runs no stored instruction (10_state.md R26). -/
def State.fetchEnc (s : State) : Fetched :=
  if s.enc.busy then .answer (s.afterEnc (s.enc.step s.par)) else .answer (.next s)

/-- A step of an engine. -/
def State.fetchEngine (s : State) : Engine → Fetched
  | .dec => s.fetchDec
  | .enc => s.fetchEnc

/-- A write of `v` to the `CMD` register of engine `e` (10_state.md R49, 30_encoding.md R112): the
command of code `v[7:0]`, or IllegalCommandError for a reserved code on an idle engine
(60_exceptions.md R278); on a busy engine it is ignored (70_reset_and_hazards.md R309). -/
def State.fetchCommand (s : State) (e : Engine) (v : Word32) : Fetched :=
  match decode (.cmd e) [v.extractLsb' 0 8] with
  | .ok (i, _) => .run i s
  | .error _ => .answer (s.whenIdle e (.next (s.faultEntry e .illegalCommand 0)))

/-- An access of the host (70_reset_and_hazards.md R308). -/
def State.fetchHost (s : State) : HostAccess → Fetched
  | .readReg e n => .answer (.next (s.hostReadReg e n))
  | .writeReg e 0 v => s.fetchCommand e v
  | .writeReg e n v => .answer (.next (s.hostWriteReg e n v))
  | .read space a => .answer (.next (s.hostRead space a))
  | .write space a v => .answer (.next (s.hostWrite space a v))

/-- The next step: the move at the head of the agenda; with an empty agenda a busy engine, DEC before
ENC, and nothing when both are idle (log 3). -/
def State.fetch (s : State) : Fetched :=
  match s.agenda with
  | .host a :: rest => { s with agenda := rest }.fetchHost a
  | .engine e :: rest => { s with agenda := rest }.fetchEngine e
  | .poll e :: rest =>
    if (s.regs e).busy then s.fetchEngine e else .answer (.next { s with agenda := rest })
  | .reset :: rest => .answer (.next { s with agenda := rest }.resetEvent)
  | [] => if s.dec.busy then s.fetchDec else s.fetchEnc

/-- A byte space without the cells at `lo` up to `hi`. -/
def dropRange (m : ByteSpace) (lo hi : Nat) : ByteSpace :=
  m.filter fun c => decide (c.1 < lo) || decide (hi ≤ c.1)

/-- The longest command: a word and the 16383 index bytes of a COPY (30_encoding.md R117). -/
def longestCommand : Nat := 2 + Config.countMax

/-- DEC in its plane loop, about to fetch the command word `w`, index bytes of zeros after it, at the
start of the stream of a file without palette (41_decoder_sequence.md R151, R157, R159, log 13). -/
def Decoder.withStreamWord (d : Decoder) (w : Word16) : Decoder :=
  let a := Config.headerBytes
  { d with
    toEngineRegs := { d.toEngineRegs.startRun with
      hasPal := 0
      csLen := BitVec.ofNat 16 longestCommand }
    inLen := BitVec.ofNat 17 (a + longestCommand)
    sp := BitVec.ofNat 17 a
    csend := BitVec.ofNat 17 (a + longestCommand)
    plane := 0
    cur := 0
    din := memWrite16 (dropRange d.din a (a + longestCommand)) a w }

end Sys2Proof.Machine
end

