-- ==== Sys2Proof/Machine/Step.lean ====
section
/-! DEFINITION. One step of the machine, and the state whose next step runs a given table word. -/

namespace Sys2Proof.Machine

/-- One step: what the fetch says is next. -/
def step (s : State) : Host.Outcome State Fault Refusal :=
  match s.fetch with
  | .run i s' => exec i s'
  | .answer o => o

/-- The state whose next step runs the table word: a host command code written to `D_CMD` by the
host, or a command word in DIN at `SP` of a DEC in its plane loop (log 13). -/
def State.withFetchWord (s : State) (nbits w : Nat) : State :=
  if nbits ≤ 8 then
    { s with
      agenda := [.host (.writeReg .dec 0 (BitVec.ofNat 32 (w % 256)))]
      dec := { s.dec with busy := false } }
  else { s with agenda := [], dec := s.dec.withStreamWord (BitVec.ofNat 16 w) }

end Sys2Proof.Machine
end

