-- ==== Sys2Proof/Machine/Tagged.lean ====
section
/-! DEFINITION. The tagged-variant view of the stream commands, payload included
(30_encoding.md R115, 40_decoder_commands.md R138): the bytes of a command, its parse, and its effect
on the engine once parsed. The machine itself runs the meanings of Machine/Stream.lean. -/

namespace Sys2Proof.Machine

/-- The source's tagged variant (30_encoding.md R115). -/
inductive TaggedCommand where
  | endOfPlane
  | skip (count : Nat)
  | repeatIndex (count : Nat) (index : Byte)
  | copyIndices (count : Nat) (indices : List Byte)
deriving DecidableEq, Repr

/-- The counts fit their field, and a COPY has as many indices as its count says (R115). -/
def TaggedCommand.wellFormed : TaggedCommand → Bool
  | .endOfPlane => true
  | .skip n => decide (n ≤ Config.countMax)
  | .repeatIndex n _ => decide (n ≤ Config.countMax)
  | .copyIndices n l => decide (n ≤ Config.countMax) && l.length == n

/-- The bytes of a command, payload included (30_encoding.md R106). -/
def TaggedCommand.bytes : TaggedCommand → List Byte
  | .endOfPlane => (encode (.eop 0)).2
  | .skip n => (encode (.skip n)).2
  | .repeatIndex n i => (encode (.repeatRun n)).2 ++ [i]
  | .copyIndices n l => (encode (.copyRun n)).2 ++ l

/-- The payload of a decoded command word, taken from the bytes after it (30_encoding.md R107, R108). -/
def TaggedCommand.withPayload (i : Instr) (rest : List Byte) : Option (TaggedCommand × List Byte) :=
  match i with
  | .eop _ => some (.endOfPlane, rest)
  | .skip n => some (.skip n, rest)
  | .repeatRun n => match rest with
    | b :: rest' => some (.repeatIndex n b, rest')
    | [] => none
  | .copyRun n =>
    if n ≤ rest.length then some (.copyIndices n (rest.take n), rest.drop n) else none
  | .nop _ => none
  | .runDec => none
  | .runEnc => none
  | .clear _ => none
  | .palGet _ => none
  | .palSet _ => none
  | .palLoadFlat _ => none
  | .palLoadList _ => none
  | .palStoreFlat _ => none
  | .palPatch _ => none
  | .palClear _ => none
  | .cimStore _ => none
  | .cimLoad _ => none
  | .cimClear _ => none

/-- One command parsed off the front of the bytes, and the bytes after it (R138). -/
def TaggedCommand.parse (bytes : List Byte) : Option (TaggedCommand × List Byte) :=
  match decode .stream bytes with
  | .ok (i, rest) => TaggedCommand.withPayload i rest
  | .error _ => none

/-- Writes a list of indices from the cursor on. -/
def Decoder.stampAll (sent : Colour) (pc0 : Nat) : List Byte → Decoder → Except Stop Decoder
  | [], d => .ok d
  | i :: rest, d => match d.stamp sent pc0 i with
    | .ok d' => Decoder.stampAll sent pc0 rest d'
    | .error st => .error st

/-- A parsed command applied to the plane, the cursor, the canvas and the map (R138). -/
def TaggedCommand.apply (sent : Colour) (pc0 : Nat) : TaggedCommand → Decoder → Except Stop Decoder
  | .endOfPlane, d => .ok d.endPlane
  | .skip n, d => .ok (d.skipPositions n)
  | .repeatIndex n i, d => Decoder.repeatLoop sent pc0 i n d
  | .copyIndices _ l, d => Decoder.stampAll sent pc0 l d

/-- The `n` bytes of DIN from `a` on. -/
def Decoder.dinBytes (d : Decoder) (a n : Nat) : List Byte :=
  (List.range n).map fun k => memRead8 d.din (a + k)

end Sys2Proof.Machine
end

