-- ==== Sys2Proof/Safety.lean ====
section
/-! DEFINITION. What holds of the machine at every moment of every run: the invariants the claims are
stated in. Between two steps `BUSY` is 1 only inside a RUN, since every other command is one step. -/

namespace Sys2Proof.Machine

/-- The status protocol of one engine (10_state.md R42, R43, R44): a running engine shows neither
`DONE` nor `ERR`, the two exclude each other, and `CAUSE` and `EPC` say something only with `ERR`. -/
def EngineRegs.StatusOk (r : EngineRegs) : Prop :=
  (r.busy = true → r.done = false ∧ r.err = false)
    ∧ ¬(r.done = true ∧ r.err = true)
    ∧ (r.err = false → r.cause = 0 ∧ r.epc = 0)
    ∧ (r.err = true → 1 ≤ r.cause.toNat ∧ r.cause.toNat ≤ 10)

/-- The status protocol of both engines. -/
def State.StatusOk (s : State) : Prop :=
  s.dec.toEngineRegs.StatusOk ∧ s.enc.toEngineRegs.StatusOk

/-- The region of a running decode lies inside the file, and `SP` inside the region
(10_state.md R21, R25, R46, 41_decoder_sequence.md R153, R157). -/
def Decoder.RegionOk (d : Decoder) : Prop :=
  d.inLen.toNat ≤ Config.fileCap
    ∧ (d.busy = true →
      d.hasPal.toNat ≤ 1 ∧ d.aw.toNat ≤ Config.virtualWidth ∧ d.ah.toNat ≤ Config.virtualHeight
        ∧ d.csStart ≤ d.sp.toNat ∧ d.sp.toNat ≤ d.csend.toNat
        ∧ d.csend.toNat = d.csStart + d.csLen.toNat ∧ d.csend.toNat ≤ d.inLen.toNat
        ∧ d.plane.toNat ≤ Config.planes)

/-- The cursor of a running decode: at most 32766 for each byte the region has given so far, which
keeps it from ever wrapping (40_decoder_commands.md R136). -/
def Decoder.CursorOk (d : Decoder) : Prop :=
  d.busy = true → d.cur.toNat ≤ 3 + 32766 * (d.sp.toNat - d.csStart)

/-- During a decode every observed index has the active palette's colour
(42_palette_and_colormap.md R201). -/
def Decoder.MapOk (d : Decoder) : Prop :=
  d.busy = true → ∀ i : Byte, (Table.get d.cim i).valid = true →
    (Table.get d.cim i).colour = Table.get d.apal i

/-- The registers of a running encode (10_state.md R22, R46, 43_encoder_runs.md R212, R214, R224,
44_encoder_visibility.md R246). -/
def Encoder.WalkOk (e : Encoder) : Prop :=
  e.outLen.toNat ≤ Config.fileCap
    ∧ (e.busy = true →
      e.gw.toNat ≤ Config.virtualWidth ∧ e.gh.toNat ≤ Config.virtualHeight
        ∧ e.hasPal.toNat ≤ 1 ∧ e.base.toNat = Config.headerBytes + Config.paletteBytes * e.hasPal.toNat
        ∧ e.base.toNat ≤ e.wp.toNat ∧ e.wp.toNat ≤ e.base.toNat + Config.streamMax
        ∧ e.plane.toNat ≤ Config.planes
        ∧ (e.plane.toNat < Config.planes →
          e.pos.toNat < Config.canvasSize + Config.planes ∧ e.pos.toNat % Config.planes = e.plane.toNat)
        ∧ (e.plane.toNat = Config.planes →
          e.csLen.toNat = e.wp.toNat - e.base.toNat ∧ e.row.toNat ≤ Config.virtualHeight
            ∧ e.pending.toNat ≤ 316 ∧ e.pending.toNat % 4 = 0))

/-- The whole invariant of the machine. -/
structure State.Inv (s : State) : Prop where
  memory  : Memory.wf s = true
  status  : s.StatusOk
  region  : s.dec.RegionOk
  cursor  : s.dec.CursorOk
  map     : s.dec.MapOk
  walk    : s.enc.WalkOk

/-! ## The terms of the claims -/

/-- The engine an instruction acts on. -/
def engineOf : Instr → Engine
  | .eop _ => .dec
  | .skip _ => .dec
  | .repeatRun _ => .dec
  | .copyRun _ => .dec
  | .nop e => e
  | .runDec => .dec
  | .runEnc => .enc
  | .clear e => e
  | .palGet e => e
  | .palSet e => e
  | .palLoadFlat e => e
  | .palLoadList e => e
  | .palStoreFlat e => e
  | .palPatch e => e
  | .palClear e => e
  | .cimStore e => e
  | .cimLoad e => e
  | .cimClear e => e

/-- The engine a host access goes to. -/
def HostAccess.engine : HostAccess → Engine
  | .readReg e _ => e
  | .writeReg e _ _ => e
  | .read space _ => space.engine
  | .write space _ _ => space.engine

/-- The next move of `s` is a step of DEC, taken in `s1` (log 3). -/
def State.DecMoves (s s1 : State) : Prop :=
  (s.agenda = [] ∧ s.dec.busy = true ∧ s1 = s)
    ∨ (∃ rest, s.agenda = .engine .dec :: rest ∧ s1 = { s with agenda := rest })
    ∨ (∃ rest, s.agenda = .poll .dec :: rest ∧ s.dec.busy = true ∧ s1 = s)

/-- The next move of `s` is a step of ENC, taken in `s1` (log 3). -/
def State.EncMoves (s s1 : State) : Prop :=
  (s.agenda = [] ∧ s.dec.busy = false ∧ s1 = s)
    ∨ (∃ rest, s.agenda = .engine .enc :: rest ∧ s1 = { s with agenda := rest })
    ∨ (∃ rest, s.agenda = .poll .enc :: rest ∧ s.enc.busy = true ∧ s1 = s)

/-- `t` is `s` after DEC's RUN took a fault: what fault entry writes, and all that a faulted RUN leaves
unchanged (60_exceptions.md R270, R272). -/
def State.FaultedDec (s t : State) (code epc : Nat) : Prop :=
  t.dec.busy = false ∧ t.dec.done = false ∧ t.dec.err = true
    ∧ t.dec.cause.toNat = code ∧ t.dec.epc.toNat = epc
    ∧ t.dec.din = s.dec.din ∧ t.dec.inLen = s.dec.inLen ∧ t.dec.xpal = s.dec.xpal
    ∧ t.dec.palv = s.dec.palv ∧ t.dec.patchEn = s.dec.patchEn ∧ t.dec.aux = s.dec.aux
    ∧ t.dec.arg0 = s.dec.arg0 ∧ t.dec.arg1 = s.dec.arg1 ∧ t.dec.res = s.dec.res
    ∧ t.enc = s.enc ∧ t.par = s.par ∧ t.agenda = s.agenda ∧ t.rdata = s.rdata

/-- `t` is `s` after ENC's RUN took a fault (60_exceptions.md R270, R272). -/
def State.FaultedEnc (s t : State) (code epc : Nat) : Prop :=
  t.enc.busy = false ∧ t.enc.done = false ∧ t.enc.err = true
    ∧ t.enc.cause.toNat = code ∧ t.enc.epc.toNat = epc ∧ t.enc.outLen = 0
    ∧ t.enc.grid = s.enc.grid ∧ t.enc.gw = s.enc.gw ∧ t.enc.gh = s.enc.gh
    ∧ t.enc.cim = s.enc.cim ∧ t.enc.xpal = s.enc.xpal
    ∧ t.enc.palv = s.enc.palv ∧ t.enc.patchEn = s.enc.patchEn ∧ t.enc.aux = s.enc.aux
    ∧ t.enc.arg0 = s.enc.arg0 ∧ t.enc.arg1 = s.enc.arg1 ∧ t.enc.res = s.enc.res
    ∧ t.dec = s.dec ∧ t.par = s.par ∧ t.agenda = s.agenda ∧ t.rdata = s.rdata

/-- `s` after an idle engine `e` faulted without changing anything else: STATUS, CAUSE and EPC, and on
ENC also E_OUTLEN (60_exceptions.md R270, R278). -/
def State.onlyFaulted (s : State) (e : Engine) (code : BitVec 4) : State :=
  match e with
  | .dec => { s with dec := { s.dec with
      busy := false, done := false, err := true, cause := code, epc := 0 } }
  | .enc => { s with enc := { s.enc with
      busy := false, done := false, err := true, cause := code, epc := 0, outLen := 0 } }

/-- `s` after a table command of engine `e` faulted: nothing but STATUS, CAUSE and EPC has changed
(60_exceptions.md R272, 42_palette_and_colormap.md R193, log 14). -/
def State.tableFaulted (s : State) (e : Engine) (code : BitVec 4) : State :=
  s.setRegs e { s.regs e with busy := false, done := false, err := true, cause := code, epc := 0 }

/-- `s` after a table command of engine `e` that left the registers `r`: the envelope's effect on
STATUS, CAUSE and EPC with it (42_palette_and_colormap.md R193). -/
def State.afterTable (s : State) (e : Engine) (r : EngineRegs) : State :=
  s.setRegs e { r with busy := false, err := false, cause := 0, epc := 0 }

/-- How many of the indices below `n` are valid in a map. -/
def validBelow (m : Vector CimEntry 256) (n : Nat) : Nat :=
  (List.range n).countP fun j => (Table.get m (BitVec.ofNat 8 j)).valid

end Sys2Proof.Machine
end

