-- ==== Sys2Proof/Certificates/Slice0/Obligations.lean ====
section
/-! DEFINITION. The statements about the model. Each docstring names the rules of spec/ it speaks of, and
the log entry where a clause is the model's own choice. -/

open Sys2Proof Sys2Proof.Machine

/-! ## Encoding -/

/-- Decoding the encoding of a well-formed instruction gives it back, with the bytes after it
(30_encoding.md R104 to R106, R112). -/
def Obligations.DecodeOfEncode : Prop :=
  ∀ (i : Instr) (rest : List Byte), i.wellFormed = true →
    decode (encode i).1 ((encode i).2 ++ rest) = .ok (i, rest)

/-- What decodes is well formed, and encoding it gives the very bytes back: no word has two meanings. -/
def Obligations.EncodeOfDecode : Prop :=
  ∀ (src : Source) (bytes rest : List Byte) (i : Instr), decode src bytes = .ok (i, rest) →
    i.wellFormed = true ∧ (encode i).1 = src ∧ (encode i).2 ++ rest = bytes

/-- The fields of a command word, from its two bytes: the tag selects the command, the count is the
rest, and every word is a command (30_encoding.md R104, R105). -/
def Obligations.WordFieldsSelectCommand : Prop :=
  ∀ (b0 b1 : Byte) (rest : List Byte), ∃ i,
    decode .stream (b0 :: b1 :: rest) = .ok (i, rest) ∧
      (∀ count, count = (b0.toNat + 256 * b1.toNat) % 16384 →
        (b1.toNat / 64 = 0 → i = .eop count) ∧ (b1.toNat / 64 = 1 → i = .skip count) ∧
        (b1.toNat / 64 = 2 → i = .repeatRun count) ∧ (b1.toNat / 64 = 3 → i = .copyRun count))

/-- Words and codes written out from the spec's tables decode to what they stand for
(30_encoding.md R106, R112, 95_test_vectors.md section 3). -/
def Obligations.SampleWordsDecode : Prop :=
  decode .stream [0xFF#8, 0x3F#8] = .ok (.eop 16383, []) ∧
  decode .stream [0x34#8, 0x12#8] = .ok (.eop 4660, []) ∧
  decode .stream [0x4E#8, 0x40#8] = .ok (.skip 78, []) ∧
  decode .stream [0x02#8, 0x80#8] = .ok (.repeatRun 2, []) ∧
  decode .stream [0xFF#8, 0xFF#8] = .ok (.copyRun 16383, []) ∧
  decode (.cmd .dec) [0x01#8] = .ok (.runDec, []) ∧
  decode (.cmd .enc) [0x01#8] = .ok (.runEnc, []) ∧
  decode (.cmd .enc) [0x12#8] = .ok (.palLoadFlat .enc, []) ∧
  decode (.cmd .dec) [0x20#8] = .ok (.cimStore .dec, [])

/-- The bytes of a well-formed command, payload included, parse back to it
(30_encoding.md R106 to R108, R115, R117). -/
def Obligations.ParseOfCommandBytes : Prop :=
  ∀ (c : TaggedCommand) (rest : List Byte), c.wellFormed = true →
    TaggedCommand.parse (c.bytes ++ rest) = some (c, rest)

/-! ## Which instruction a step runs -/

/-- A step of a running DEC fetches the word at SP and runs the command it decodes to, in the state
after the fetch (40_decoder_commands.md R130); which moves are DEC's is log 3. -/
def Obligations.StepRunsDecodedCommand : Prop :=
  ∀ (s s1 : State) (i : Instr) (rest : List Byte), s.DecMoves s1 → s.dec.busy = true →
    s.dec.plane.toNat < 4 → s.dec.sp.toNat + 2 ≤ s.dec.csend.toNat → s.dec.sp.toNat + 1 < 67111 →
    decode .stream [memRead8 s.dec.din s.dec.sp.toNat, memRead8 s.dec.din (s.dec.sp.toNat + 1)]
      = .ok (i, rest) →
    step s = exec i { s1 with dec := { s1.dec with
      word := memRead16 s.dec.din s.dec.sp.toNat
      sp := s.dec.sp + 2
      cnt := wordCount (memRead16 s.dec.din s.dec.sp.toNat) } }

/-- A code that is none of the thirteen listed, written to the CMD register of an idle engine, raises
IllegalCommandError and changes nothing else (60_exceptions.md R278, 30_encoding.md R112). -/
def Obligations.ReservedCodeRaisesIllegalCommand : Prop :=
  ∀ (s : State) (turns : List Turn) (e : Engine) (v : Word32),
    s.agenda = .host (.writeReg e 0 v) :: turns → (s.regs e).busy = false →
    v.toNat % 256 ∉ [0x00, 0x01, 0x02, 0x10, 0x11, 0x12, 0x13, 0x14, 0x15, 0x16, 0x20, 0x21, 0x22] →
    step s = .next (State.onlyFaulted { s with agenda := turns } e 10)

/-- A write to CMD while BUSY is 1 is ignored, whatever the code; while BUSY is 0 it issues the command
at once (70_reset_and_hazards.md R309). -/
def Obligations.CommandWriteNeedsIdleEngine : Prop :=
  ∀ (s : State) (turns : List Turn) (e : Engine) (v : Word32),
    s.agenda = .host (.writeReg e 0 v) :: turns →
    ((s.regs e).busy = true → step s = .next { s with agenda := turns }) ∧
    (∀ i rest, (s.regs e).busy = false → decode (.cmd e) [v.extractLsb' 0 8] = .ok (i, rest) →
      step s = exec i { s with agenda := turns })

/-! ## The stream commands -/

/-- EOP, with any count: the next plane, its cursor at the plane offset, nothing else
(40_decoder_commands.md R131). -/
def Obligations.EopOpensNextPlane : Prop :=
  ∀ (s : State) (count : Nat), s.dec.plane.toNat < 4 →
    ∃ t, exec (.eop count) s = .next t ∧
      t = { s with dec := { s.dec with plane := t.dec.plane, cur := t.dec.cur } } ∧
      t.dec.plane.toNat = s.dec.plane.toNat + 1 ∧
      (s.dec.plane.toNat + 1 < 4 → t.dec.cur.toNat = s.dec.plane.toNat + 1) ∧
      (s.dec.plane.toNat + 1 = 4 → t.dec.cur = s.dec.cur)

/-- SKIP moves the cursor by four positions a count, past the canvas too, and changes nothing else
(40_decoder_commands.md R132; the bound is R136's). -/
def Obligations.SkipMovesCursorOnly : Prop :=
  ∀ (s : State) (count : Nat), count ≤ 16383 → s.dec.cur.toNat + 4 * count < 2 ^ 32 →
    ∃ t, exec (.skip count) s = .next t ∧
      t = { s with dec := { s.dec with cur := t.dec.cur } } ∧
      t.dec.cur.toNat = s.dec.cur.toNat + 4 * count

/-- REPEAT reads one index and writes its colour at `count` cursor positions, recording it in the map
when it writes at all; every other position and entry and all else stays (40_decoder_commands.md R133,
R135, 42_palette_and_colormap.md R196). The state is the one after the fetch. -/
def Obligations.RepeatWritesOneIndex : Prop :=
  ∀ (s : State) (count : Nat) (i : Byte) (c : Colour), Memory.wf s = true → count ≤ 16383 →
    s.dec.sp.toNat < s.dec.csend.toNat → s.dec.csend.toNat ≤ 67111 →
    (∀ k < count, s.dec.cur.toNat + 4 * k < 64000) →
    i = memRead8 s.dec.din s.dec.sp.toNat → c = Table.get s.dec.apal i →
    ∃ t, exec (.repeatRun count) s = .next t ∧
      t = { s with dec := { s.dec with
        sp := t.dec.sp, idx := i, cur := t.dec.cur, canvas := t.dec.canvas, cim := t.dec.cim } } ∧
      t.dec.sp.toNat = s.dec.sp.toNat + 1 ∧ t.dec.cur.toNat = s.dec.cur.toNat + 4 * count ∧
      (∀ k < count, Cells.read s.par.sentinel t.dec.canvas (s.dec.cur.toNat + 4 * k) = c) ∧
      (∀ pos, (∀ k < count, pos ≠ s.dec.cur.toNat + 4 * k) →
        Cells.read s.par.sentinel t.dec.canvas pos = Cells.read s.par.sentinel s.dec.canvas pos) ∧
      (0 < count → Table.get t.dec.cim i = { valid := true, colour := c }) ∧
      (∀ j, (j = i → count = 0) → Table.get t.dec.cim j = Table.get s.dec.cim j)

/-- COPY reads `count` indices and writes each one's colour at its cursor position, recording each;
every other position and entry and all else stays (40_decoder_commands.md R134, R135,
42_palette_and_colormap.md R196). The state is the one after the fetch. -/
def Obligations.CopyWritesEachIndex : Prop :=
  ∀ (s : State) (count : Nat) (i : Nat → Byte), Memory.wf s = true → count ≤ 16383 →
    s.dec.sp.toNat + count ≤ s.dec.csend.toNat → s.dec.csend.toNat ≤ 67111 →
    (∀ k < count, s.dec.cur.toNat + 4 * k < 64000) →
    (∀ k, i k = memRead8 s.dec.din (s.dec.sp.toNat + k)) →
    ∃ t, exec (.copyRun count) s = .next t ∧
      t = { s with dec := { s.dec with
        sp := t.dec.sp, idx := t.dec.idx, cur := t.dec.cur, canvas := t.dec.canvas,
        cim := t.dec.cim } } ∧
      t.dec.idx = (if count = 0 then s.dec.idx else i (count - 1)) ∧
      t.dec.sp.toNat = s.dec.sp.toNat + count ∧ t.dec.cur.toNat = s.dec.cur.toNat + 4 * count ∧
      (∀ k < count, Cells.read s.par.sentinel t.dec.canvas (s.dec.cur.toNat + 4 * k)
        = Table.get s.dec.apal (i k)) ∧
      (∀ pos, (∀ k < count, pos ≠ s.dec.cur.toNat + 4 * k) →
        Cells.read s.par.sentinel t.dec.canvas pos = Cells.read s.par.sentinel s.dec.canvas pos) ∧
      (∀ k < count, Table.get t.dec.cim (i k)
        = { valid := true, colour := Table.get s.dec.apal (i k) }) ∧
      (∀ j, (∀ k < count, j ≠ i k) → Table.get t.dec.cim j = Table.get s.dec.cim j)

/-- REPEAT's faults: the index byte first, then the first position outside the canvas; the location is
the command word's offset (40_decoder_commands.md R133, 60_exceptions.md R266, R267, R274). -/
def Obligations.RepeatFaultsInOrder : Prop :=
  ∀ (s : State) (count : Nat), 2 ≤ s.dec.sp.toNat → s.dec.csend.toNat ≤ 67111 →
    (s.dec.csend.toNat ≤ s.dec.sp.toNat →
      ∃ t, exec (.repeatRun count) s = .next t ∧ s.FaultedDec t 6 (s.dec.sp.toNat - 2)) ∧
    (∀ k < count, s.dec.sp.toNat < s.dec.csend.toNat → 64000 ≤ s.dec.cur.toNat + 4 * k →
      ∃ t, exec (.repeatRun count) s = .next t ∧ s.FaultedDec t 7 (s.dec.sp.toNat - 2))

/-- COPY's faults, element by element: at the first element that cannot go on, the missing payload byte
wins over the position outside the canvas (40_decoder_commands.md R134, R138, 60_exceptions.md R274). -/
def Obligations.CopyFaultsElementByElement : Prop :=
  ∀ (s : State) (count k : Nat), 2 ≤ s.dec.sp.toNat → s.dec.csend.toNat ≤ 67111 → k < count →
    (∀ j < k, s.dec.sp.toNat + j < s.dec.csend.toNat ∧ s.dec.cur.toNat + 4 * j < 64000) →
    (s.dec.csend.toNat ≤ s.dec.sp.toNat + k →
      ∃ t, exec (.copyRun count) s = .next t ∧ s.FaultedDec t 6 (s.dec.sp.toNat - 2)) ∧
    (s.dec.sp.toNat + k < s.dec.csend.toNat → 64000 ≤ s.dec.cur.toNat + 4 * k →
      ∃ t, exec (.copyRun count) s = .next t ∧ s.FaultedDec t 7 (s.dec.sp.toNat - 2))

/-- A command word that would extend past the region raises StreamUnderrunError at SP
(40_decoder_commands.md R130, 60_exceptions.md R266). -/
def Obligations.FetchPastRegionUnderruns : Prop :=
  ∀ s s1 : State, s.DecMoves s1 → s.dec.busy = true → s.dec.plane.toNat < 4 →
    s.dec.csend.toNat < s.dec.sp.toNat + 2 →
    ∃ t, step s = .next t ∧ s1.FaultedDec t 6 s.dec.sp.toNat

/-- Parsing a command whole and then applying it agrees with the machine's element-by-element meaning
whenever the region holds the whole command: same plane, cursor, canvas, map and next byte, or the same
fault (40_decoder_commands.md R138). -/
def Obligations.ParseThenApplyAgrees : Prop :=
  ∀ (s : State) (d : Decoder) (c : TaggedCommand) (rest : List Byte),
    s.dec.csend.toNat ≤ 67111 → s.dec.fetchWord = .ok d →
    TaggedCommand.parse
      (s.dec.dinBytes s.dec.sp.toNat (s.dec.csend.toNat - s.dec.sp.toNat)) = some (c, rest) →
    (∀ d', c.apply s.par.sentinel s.dec.sp.toNat d = .ok d' →
      ∃ t, exec (decodeWord d.word) { s with dec := d } = .next t ∧
        t.dec.plane = d'.plane ∧ t.dec.cur = d'.cur ∧ t.dec.canvas = d'.canvas ∧
        t.dec.cim = d'.cim ∧ t.dec.sp.toNat + rest.length = s.dec.csend.toNat) ∧
    (∀ cause epc, c.apply s.par.sentinel s.dec.sp.toNat d = .error (.raised cause epc) →
      exec (decodeWord d.word) { s with dec := d }
        = .next (State.faultEntry { s with dec := d } .dec cause epc).spoilDec) ∧
    (∀ f, c.apply s.par.sentinel s.dec.sp.toNat d ≠ .error (.stopped f))

/-! ## RUN on DEC -/

/-- RUN on an idle DEC whose file embeds no palette, with an external one supplied: header registers,
active palette (patched when PATCH_EN), region, sentinel canvas, empty map, first plane; nothing else
changes (41_decoder_sequence.md R151 to R159). -/
def Obligations.RunDecWithExternalPalette : Prop :=
  ∀ s : State, s.dec.busy = false → 8 ≤ s.dec.inLen.toNat → (memRead16 s.dec.din 0).toNat = 0 →
    (memRead16 s.dec.din 4).toNat ≤ 320 → (memRead16 s.dec.din 6).toNat ≤ 200 →
    s.dec.palv = true → 8 + (memRead16 s.dec.din 2).toNat ≤ s.dec.inLen.toNat →
    ∃ t, exec .runDec s = .next t ∧
      t = { s with dec := { s.dec with
        busy := true, done := false, err := false, cause := 0, epc := 0, hasPal := 0
        csLen := memRead16 s.dec.din 2, aw := memRead16 s.dec.din 4, ah := memRead16 s.dec.din 6
        apal := if s.dec.patchEn then patchPalette s.par.patchTable s.dec.xpal else s.dec.xpal
        csend := t.dec.csend, sp := 8, canvas := t.dec.canvas, cim := t.dec.cim
        plane := 0, cur := 0 } } ∧
      t.dec.csend.toNat = 8 + (memRead16 s.dec.din 2).toNat ∧
      (∀ pos, Cells.read s.par.sentinel t.dec.canvas pos = s.par.sentinel) ∧
      (∀ i, Table.get t.dec.cim i = { Table.get s.dec.cim i with valid := false })

/-- RUN on an idle DEC whose file embeds a palette: as above, the active palette being the embedded one
with every DAC value shifted to full depth, whether or not an external one is supplied
(41_decoder_sequence.md R151 to R159, 42_palette_and_colormap.md R181). -/
def Obligations.RunDecWithEmbeddedPalette : Prop :=
  ∀ s : State, s.dec.busy = false → (memRead16 s.dec.din 0).toNat = 1 →
    (memRead16 s.dec.din 4).toNat ≤ 320 → (memRead16 s.dec.din 6).toNat ≤ 200 →
    776 + (memRead16 s.dec.din 2).toNat ≤ s.dec.inLen.toNat →
    (∀ a, 8 ≤ a → a < 776 → (memRead8 s.dec.din a).toNat ≤ 63) →
    ∃ t p, exec .runDec s = .next t ∧
      (∀ i : Byte, Table.get p i = rgb
        (BitVec.ofNat 8 (4 * (memRead8 s.dec.din (8 + 3 * i.toNat)).toNat))
        (BitVec.ofNat 8 (4 * (memRead8 s.dec.din (8 + 3 * i.toNat + 1)).toNat))
        (BitVec.ofNat 8 (4 * (memRead8 s.dec.din (8 + 3 * i.toNat + 2)).toNat))) ∧
      t = { s with dec := { s.dec with
        busy := true, done := false, err := false, cause := 0, epc := 0, hasPal := 1
        csLen := memRead16 s.dec.din 2, aw := memRead16 s.dec.din 4, ah := memRead16 s.dec.din 6
        apal := if s.dec.patchEn then patchPalette s.par.patchTable p else p
        csend := t.dec.csend, sp := 776, canvas := t.dec.canvas, cim := t.dec.cim
        plane := 0, cur := 0 } } ∧
      t.dec.csend.toNat = 776 + (memRead16 s.dec.din 2).toNat ∧
      (∀ pos, Cells.read s.par.sentinel t.dec.canvas pos = s.par.sentinel) ∧
      (∀ i, Table.get t.dec.cim i = { Table.get s.dec.cim i with valid := false })

/-- RUN on an idle DEC makes its checks in one order, and the first that fails is the fault reported
(41_decoder_sequence.md R152 to R157, 60_exceptions.md R274 items 1 to 8). -/
def Obligations.RunDecChecksInOrder : Prop :=
  ∀ (s : State) (flag width height len : Nat), s.dec.busy = false →
    flag = (memRead16 s.dec.din 0).toNat → len = (memRead16 s.dec.din 2).toNat →
    width = (memRead16 s.dec.din 4).toNat → height = (memRead16 s.dec.din 6).toNat →
    ∃ t, exec .runDec s = .next t ∧
      (s.dec.inLen.toNat < 8 → s.FaultedDec t 6 0) ∧
      (8 ≤ s.dec.inLen.toNat →
        (1 < flag → s.FaultedDec t 5 0) ∧
        (flag ≤ 1 → 320 < width → s.FaultedDec t 5 4) ∧
        (flag ≤ 1 → width ≤ 320 → 200 < height → s.FaultedDec t 5 6) ∧
        (width ≤ 320 → height ≤ 200 →
          (flag = 0 → s.dec.palv = false → s.FaultedDec t 3 0) ∧
          (flag = 0 → s.dec.palv = true → s.dec.inLen.toNat < 8 + len → s.FaultedDec t 6 2) ∧
          (flag = 1 → s.dec.inLen.toNat < 776 → s.FaultedDec t 6 8) ∧
          (∀ a, flag = 1 → 776 ≤ s.dec.inLen.toNat → 8 ≤ a → a < 776 →
            63 < (memRead8 s.dec.din a).toNat →
            (∀ b, 8 ≤ b → b < a → (memRead8 s.dec.din b).toNat ≤ 63) → s.FaultedDec t 5 a) ∧
          (flag = 1 → 776 ≤ s.dec.inLen.toNat →
            (∀ a, 8 ≤ a → a < 776 → (memRead8 s.dec.din a).toNat ≤ 63) →
            s.dec.inLen.toNat < 776 + len → s.FaultedDec t 6 2)))

/-- What RUN on DEC makes of a file before its plane loop depends on the bytes below D_INLEN, D_INLEN,
PALV, PATCH_EN, XPAL and the parameters, and on nothing else (41_decoder_sequence.md R164). -/
def Obligations.RunDecDependsOnInputsOnly : Prop :=
  ∀ s s' t t' : State, s.dec.busy = false → s'.dec.busy = false → s.par = s'.par →
    s.dec.inLen = s'.dec.inLen → s.dec.palv = s'.dec.palv → s.dec.patchEn = s'.dec.patchEn →
    s.dec.xpal = s'.dec.xpal →
    (∀ a < s.dec.inLen.toNat, memRead8 s.dec.din a = memRead8 s'.dec.din a) →
    exec .runDec s = .next t → exec .runDec s' = .next t' →
    t.dec.err = t'.dec.err ∧ t.dec.cause = t'.dec.cause ∧ t.dec.epc = t'.dec.epc ∧
      (t.dec.err = false →
        t.dec.hasPal = t'.dec.hasPal ∧ t.dec.csLen = t'.dec.csLen ∧ t.dec.aw = t'.dec.aw ∧
        t.dec.ah = t'.dec.ah ∧ t.dec.apal = t'.dec.apal ∧ t.dec.canvas = t'.dec.canvas ∧
        t.dec.sp = t'.dec.sp ∧ t.dec.csend = t'.dec.csend ∧ t.dec.plane = t'.dec.plane ∧
        t.dec.cur = t'.dec.cur ∧
        ∀ i, (Table.get t.dec.cim i).valid = (Table.get t'.dec.cim i).valid)

/-! ## Control commands -/

/-- NOP changes nothing, in any state (60_exceptions.md R277). -/
def Obligations.NopChangesNothing : Prop :=
  ∀ (e : Engine) (s : State), exec (.nop e) s = .next s

/-- CLEAR on an idle engine clears ERR, DONE, CAUSE, EPC and on ENC E_OUTLEN, and nothing else
(60_exceptions.md R276). -/
def Obligations.ClearAcknowledges : Prop :=
  ∀ s : State,
    (s.dec.busy = false → exec (.clear .dec) s = .next { s with dec := { s.dec with
      err := false, done := false, cause := 0, epc := 0 } }) ∧
    (s.enc.busy = false → exec (.clear .enc) s = .next { s with enc := { s.enc with
      err := false, done := false, cause := 0, epc := 0, outLen := 0 } })

/-! ## Palette commands -/

/-- PAL_GET and PAL_SET: the indexed entry, by the low 16 bits of ARG0; an index above 255 raises
RangeError (42_palette_and_colormap.md R187) with only STATUS, CAUSE and EPC changed (R193, 60_exceptions.md
R272), E_OUTLEN of ENC as before (D22, log 14). -/
def Obligations.PalGetAndPalSetByIndex : Prop :=
  ∀ (e : Engine) (s : State) (r : EngineRegs) (n : Nat), (s.regs e).busy = false → r = s.regs e →
    n = r.arg0.toNat % 65536 →
    (n ≤ 255 →
      exec (.palGet e) s = .next (s.afterTable e { r with
        res := BitVec.ofNat 32 (Table.get r.xpal (BitVec.ofNat 8 n)).toNat }) ∧
      exec (.palSet e) s = .next (s.afterTable e { r with
        xpal := Table.set r.xpal (BitVec.ofNat 8 n) (BitVec.ofNat 24 r.arg1.toNat) })) ∧
    (255 < n → exec (.palGet e) s = .next (s.tableFaulted e 2) ∧
      exec (.palSet e) s = .next (s.tableFaulted e 2))

/-- PAL_LOAD_FLAT takes the full triplets of AUX, black after them, PAL_LOAD_LIST exactly 256; both set
PALV; a flat byte count not a multiple of 3 or above 768, and a list of any other length, raise
FormatError (42_palette_and_colormap.md R184, R185) with only STATUS, CAUSE and EPC changed (R193,
60_exceptions.md R272), E_OUTLEN of ENC as before (D22, log 14). -/
def Obligations.PaletteLoadsParseTriplets : Prop :=
  ∀ (e : Engine) (s : State) (r : EngineRegs) (n : Nat), (s.regs e).busy = false → r = s.regs e →
    n = r.arg0.toNat % 65536 →
    (n % 3 = 0 → n ≤ 768 → ∃ p,
      exec (.palLoadFlat e) s = .next (s.afterTable e { r with xpal := p, palv := true }) ∧
      ∀ i : Byte,
        (i.toNat < n / 3 → Table.get p i = rgb (memRead8 r.aux (3 * i.toNat))
          (memRead8 r.aux (3 * i.toNat + 1)) (memRead8 r.aux (3 * i.toNat + 2))) ∧
        (n / 3 ≤ i.toNat → Table.get p i = 0)) ∧
    ((n % 3 ≠ 0 ∨ 768 < n) → exec (.palLoadFlat e) s = .next (s.tableFaulted e 1)) ∧
    (n = 256 → ∃ p,
      exec (.palLoadList e) s = .next (s.afterTable e { r with xpal := p, palv := true }) ∧
      ∀ i : Byte, Table.get p i = rgb (memRead8 r.aux (3 * i.toNat))
        (memRead8 r.aux (3 * i.toNat + 1)) (memRead8 r.aux (3 * i.toNat + 2))) ∧
    (n ≠ 256 → exec (.palLoadList e) s = .next (s.tableFaulted e 1))

/-- PAL_STORE_FLAT: the 768 bytes of XPAL, every other byte of AUX as before
(42_palette_and_colormap.md R186). -/
def Obligations.PalStoreFlatWritesTriplets : Prop :=
  ∀ (e : Engine) (s : State) (r : EngineRegs), Memory.wf s = true → (s.regs e).busy = false →
    r = s.regs e →
    ∃ m, exec (.palStoreFlat e) s = .next (s.afterTable e { r with aux := m }) ∧
      (∀ i : Byte,
        memRead8 m (3 * i.toNat) = red (Table.get r.xpal i) ∧
        memRead8 m (3 * i.toNat + 1) = green (Table.get r.xpal i) ∧
        memRead8 m (3 * i.toNat + 2) = blue (Table.get r.xpal i)) ∧
      (∀ a, 768 ≤ a → memRead8 m a = memRead8 r.aux a)

/-- PAL_PATCH: black entries from 198 on become their constants, every other entry stays, whatever
PATCH_EN (42_palette_and_colormap.md R188, R189). -/
def Obligations.PalPatchReplacesBlackTail : Prop :=
  ∀ (e : Engine) (s : State) (r : EngineRegs), (s.regs e).busy = false → r = s.regs e →
    ∃ p, exec (.palPatch e) s = .next (s.afterTable e { r with xpal := p }) ∧
      ∀ i : Byte,
        (i.toNat < 198 → Table.get p i = Table.get r.xpal i) ∧
        (Table.get r.xpal i ≠ 0 → Table.get p i = Table.get r.xpal i) ∧
        (∀ k : Fin 58, i.toNat = 198 + k.val → Table.get r.xpal i = 0 →
          Table.get p i = rgb (BitVec.ofNat 8 (4 * s.par.patchTable[k].r.toNat))
            (BitVec.ofNat 8 (4 * s.par.patchTable[k].g.toNat))
            (BitVec.ofNat 8 (4 * s.par.patchTable[k].b.toNat)))

/-- PAL_CLEAR leaves an all-black palette that is not supplied, CIM_CLEAR a map with every entry invalid
(42_palette_and_colormap.md R190, R199); besides, both clear ERR, CAUSE and EPC, as every table command does,
and change nothing else (R193). -/
def Obligations.ClearingCommandsEmptyTables : Prop :=
  ∀ (e : Engine) (s : State) (r : EngineRegs), (s.regs e).busy = false → r = s.regs e →
    (∃ p, exec (.palClear e) s = .next (s.afterTable e { r with xpal := p, palv := false }) ∧
      ∀ i, Table.get p i = 0) ∧
    (∃ m, exec (.cimClear e) s = .next (s.afterTable e { r with cim := m }) ∧
      ∀ i, Table.get m i = { Table.get r.cim i with valid := false })

/-- Storing a palette and loading it back as 768 bytes gives the same palette
(42_palette_and_colormap.md R184, R186). -/
def Obligations.PaletteStoreThenLoadIsIdentity : Prop :=
  ∀ (e : Engine) (s t : State), Memory.wf s = true → (s.regs e).busy = false →
    exec (.palStoreFlat e) s = .next t →
    ∃ u, exec (.palLoadFlat e) (t.setRegs e { t.regs e with arg0 := 768 }) = .next u ∧
      (u.regs e).xpal = (s.regs e).xpal ∧ (u.regs e).err = false

/-- The patch is idempotent (42_palette_and_colormap.md R192). -/
def Obligations.PatchIsIdempotent : Prop :=
  ∀ (table : Vector DacColour 58) (p : Vector Colour 256),
    patchPalette table (patchPalette table p) = patchPalette table p

/-- The laws of the DAC conversions (42_palette_and_colormap.md R183). -/
def Obligations.DacConversionLaws : Prop :=
  (∀ d : BitVec 6, toDac (fromDac d) = d) ∧
  (∀ v : Byte, fromDac (toDac v) = v &&& 0xFC#8) ∧
  (∀ d : BitVec 6, fromDac (toDac (fromDac d)) = fromDac d)

/-! ## Colour-index-map commands -/

/-- CIM_STORE: one record for each valid index, in ascending order, RES the byte count, every byte of AUX
at or after it as before (42_palette_and_colormap.md R197, 30_encoding.md R114). -/
def Obligations.CimStoreWritesRecords : Prop :=
  ∀ (e : Engine) (s : State) (r : EngineRegs), Memory.wf s = true → (s.regs e).busy = false →
    r = s.regs e →
    ∃ m, exec (.cimStore e) s = .next (s.afterTable e { r with
        aux := m, res := BitVec.ofNat 32 (4 * validBelow r.cim 256) }) ∧
      (∀ (i : Byte) (k : Nat), (Table.get r.cim i).valid = true → k = validBelow r.cim i.toNat →
        memRead8 m (4 * k) = i ∧ memRead8 m (4 * k + 1) = red (Table.get r.cim i).colour ∧
        memRead8 m (4 * k + 2) = green (Table.get r.cim i).colour ∧
        memRead8 m (4 * k + 3) = blue (Table.get r.cim i).colour) ∧
      (∀ a, 4 * validBelow r.cim 256 ≤ a → memRead8 m a = memRead8 r.aux a)

/-- CIM_LOAD: the records in file order, a later one for the same index winning, every other entry
invalid; a byte count not a multiple of 4 or above 1024 raises FormatError (42_palette_and_colormap.md
R198) with only STATUS, CAUSE and EPC changed (R193, 60_exceptions.md R272), E_OUTLEN of ENC as before (D22,
log 14). -/
def Obligations.CimLoadTakesRecords : Prop :=
  ∀ (e : Engine) (s : State) (r : EngineRegs) (n : Nat), (s.regs e).busy = false → r = s.regs e →
    n = r.arg0.toNat % 65536 →
    (n % 4 = 0 → n ≤ 1024 → ∃ m,
      exec (.cimLoad e) s = .next (s.afterTable e { r with cim := m }) ∧
      (∀ k < n / 4, (∀ j < n / 4, k < j → memRead8 r.aux (4 * j) ≠ memRead8 r.aux (4 * k)) →
        Table.get m (memRead8 r.aux (4 * k)) = CimEntry.mk true (rgb (memRead8 r.aux (4 * k + 1))
          (memRead8 r.aux (4 * k + 2)) (memRead8 r.aux (4 * k + 3)))) ∧
      (∀ i, (∀ k < n / 4, memRead8 r.aux (4 * k) ≠ i) →
        Table.get m i = { Table.get r.cim i with valid := false })) ∧
    ((n % 4 ≠ 0 ∨ 1024 < n) → exec (.cimLoad e) s = .next (s.tableFaulted e 1))

/-- The path of a map from DEC to ENC: stored by DEC, its bytes moved by the host, loaded by ENC, it has
the same valid indices with the same colours (42_palette_and_colormap.md R195, R197, R198). -/
def Obligations.MapTravelsFromDecToEnc : Prop :=
  ∀ s t u : State, Memory.wf s = true → s.dec.busy = false → exec (.cimStore .dec) s = .next t →
    u.enc.busy = false → u.enc.arg0 = t.dec.res →
    (∀ a < t.dec.res.toNat, memRead8 u.enc.aux a = memRead8 t.dec.aux a) →
    ∃ v, exec (.cimLoad .enc) u = .next v ∧
      ∀ i, (Table.get v.enc.cim i).valid = (Table.get s.dec.cim i).valid ∧
        ((Table.get s.dec.cim i).valid = true →
          (Table.get v.enc.cim i).colour = (Table.get s.dec.cim i).colour)

/-- The encoder's lookup: nothing exactly when no valid entry has the colour, else the lowest index that
has it (42_palette_and_colormap.md R200; the lowest index is the spec's decision D12). -/
def Obligations.LookupTakesLowestIndex : Prop :=
  ∀ (m : Vector CimEntry 256) (c : Colour),
    (lookupColour m c = none ↔ ∀ i, ¬((Table.get m i).valid = true ∧ (Table.get m i).colour = c)) ∧
    (∀ i, lookupColour m c = some i ↔
      ((Table.get m i).valid = true ∧ (Table.get m i).colour = c) ∧
      ∀ j : Byte, j.toNat < i.toNat → ¬((Table.get m j).valid = true ∧ (Table.get m j).colour = c))

/-! ## RUN on ENC -/

/-- RUN on an idle ENC with a grid no larger than the canvas begins the plane walk: status, E_OUTLEN 0,
the flag from PALV, the output base, the first position; nothing else changes (43_encoder_runs.md R211,
R212, R214, R216). A grid that is larger raises DimensionError (60_exceptions.md R268). -/
def Obligations.RunEncBeginsWalk : Prop :=
  ∀ s : State, s.enc.busy = false →
    (s.enc.gw.toNat ≤ 320 → s.enc.gh.toNat ≤ 200 →
      exec .runEnc s = .next { s with enc := { s.enc with
        busy := true, done := false, err := false, cause := 0, epc := 0, outLen := 0
        hasPal := if s.enc.palv then 1 else 0
        base := if s.enc.palv then 776 else 8
        wp := if s.enc.palv then 776 else 8
        plane := 0, pos := 0 } }) ∧
    ((320 < s.enc.gw.toNat ∨ 200 < s.enc.gh.toNat) →
      ∃ t, exec .runEnc s = .next t ∧ s.FaultedEnc t 8 0)

/-- A SKIP run of the walk: it counts the transparent positions from POS on. When it reaches the end of the
plane it emits nothing, whatever room the stream has. Otherwise, when the stream has room for a word, it
emits one SKIP word. Every other byte of EOUT and all else stays (43_encoder_runs.md R217, R218). -/
def Obligations.SkipRunCountsTransparent : Prop :=
  ∀ (s s1 : State), s.EncMoves s1 → Memory.wf s = true → s.enc.busy = true →
    s.enc.plane.toNat < 4 → s.enc.pos.toNat < 64000 →
    s.enc.transparent s.par.sentinel s.enc.pos.toNat = true →
    ∃ n, 1 ≤ n ∧ n ≤ 16383 ∧
      (∀ k < n, s.enc.pos.toNat + 4 * k < 64000 ∧
        s.enc.transparent s.par.sentinel (s.enc.pos.toNat + 4 * k) = true) ∧
      (64000 ≤ s.enc.pos.toNat + 4 * n →
        step s = .next { s1 with enc := { s1.enc with
          n := BitVec.ofNat 14 n, pos := BitVec.ofNat 17 (s.enc.pos.toNat + 4 * n) } }) ∧
      (s.enc.pos.toNat + 4 * n < 64000 →
        (s.enc.transparent s.par.sentinel (s.enc.pos.toNat + 4 * n) = false ∨ n = 16383) ∧
        (s.enc.base.toNat ≤ 776 → s.enc.wp.toNat + 2 ≤ s.enc.base.toNat + 65535 →
          ∃ t, step s = .next t ∧
            t = { s1 with enc := { s1.enc with
              n := BitVec.ofNat 14 n, pos := t.enc.pos, wp := t.enc.wp, eout := t.enc.eout } } ∧
            t.enc.pos.toNat = s.enc.pos.toNat + 4 * n ∧
            t.enc.wp.toNat = s.enc.wp.toNat + 2 ∧
            (memRead16 t.enc.eout s.enc.wp.toNat).toNat = 0x4000 + n ∧
            ∀ a, a ≠ s.enc.wp.toNat → a ≠ s.enc.wp.toNat + 1 →
              memRead8 t.enc.eout a = memRead8 s.enc.eout a))

/-- A COPY run of the walk over `n` opaque positions whose colours the map holds: the count word at the
placeholder, then one index a position; a change of colour does not end it; every other byte of EOUT and
all else stays (43_encoder_runs.md R219, R220). -/
def Obligations.CopyRunEmitsIndices : Prop :=
  ∀ (s s1 : State) (n : Nat), s.EncMoves s1 → Memory.wf s = true → s.enc.busy = true →
    s.enc.plane.toNat < 4 → 1 ≤ n → n ≤ 16383 →
    (∀ k < n, s.enc.pos.toNat + 4 * k < 64000 ∧
      s.enc.transparent s.par.sentinel (s.enc.pos.toNat + 4 * k) = false ∧
      lookupColour s.enc.cim (s.enc.pix s.par.sentinel (s.enc.pos.toNat + 4 * k)) ≠ none) →
    (64000 ≤ s.enc.pos.toNat + 4 * n ∨
      s.enc.transparent s.par.sentinel (s.enc.pos.toNat + 4 * n) = true ∨ n = 16383) →
    s.enc.base.toNat ≤ 776 → s.enc.wp.toNat + 2 + n ≤ s.enc.base.toNat + 65535 →
    ∃ t, step s = .next t ∧
      t = { s1 with enc := { s1.enc with
        n := BitVec.ofNat 14 n, pos := t.enc.pos, ph := s.enc.wp, wp := t.enc.wp,
        eout := t.enc.eout } } ∧
      t.enc.pos.toNat = s.enc.pos.toNat + 4 * n ∧
      t.enc.wp.toNat = s.enc.wp.toNat + 2 + n ∧
      (memRead16 t.enc.eout s.enc.wp.toNat).toNat = 0xC000 + n ∧
      (∀ k < n, lookupColour s.enc.cim (s.enc.pix s.par.sentinel (s.enc.pos.toNat + 4 * k))
        = some (memRead8 t.enc.eout (s.enc.wp.toNat + 2 + k))) ∧
      (∀ a, a < s.enc.wp.toNat ∨ s.enc.wp.toNat + 2 + n ≤ a →
        memRead8 t.enc.eout a = memRead8 s.enc.eout a)

/-- The first opaque position of a COPY run whose colour no valid entry holds raises UnmappedColorError
there (43_encoder_runs.md R219, 60_exceptions.md R264, R275). -/
def Obligations.UnmappedColourAbortsEncode : Prop :=
  ∀ (s s1 : State) (n : Nat), s.EncMoves s1 → s.enc.busy = true → s.enc.plane.toNat < 4 →
    n < 16383 → (∀ k < n, lookupColour s.enc.cim
      (s.enc.pix s.par.sentinel (s.enc.pos.toNat + 4 * k)) ≠ none) →
    (∀ k ≤ n, s.enc.pos.toNat + 4 * k < 64000 ∧
      s.enc.transparent s.par.sentinel (s.enc.pos.toNat + 4 * k) = false) →
    lookupColour s.enc.cim (s.enc.pix s.par.sentinel (s.enc.pos.toNat + 4 * n)) = none →
    s.enc.base.toNat ≤ 776 → s.enc.wp.toNat + 2 + n ≤ s.enc.base.toNat + 65535 →
    ∃ t, step s = .next t ∧ s1.FaultedEnc t 4 (s.enc.pos.toNat + 4 * n)

/-- Every emit that would make the stream longer than 65535 bytes raises LengthOverflowError at POS: the
end-of-plane word and the count word of a COPY run where they stand, the SKIP word at the position its run
of `n` reached, and the index byte of a COPY run, after `n` that fitted, at its own position, once its colour
was found (43_encoder_runs.md R215, R217, R219, 60_exceptions.md R269, R275). -/
def Obligations.StreamLengthIsBounded : Prop :=
  ∀ (s s1 : State) (n : Nat), s.EncMoves s1 → s.enc.busy = true → s.enc.plane.toNat < 4 →
    (s.enc.base.toNat + 65535 < s.enc.wp.toNat + 2 →
      (64000 ≤ s.enc.pos.toNat ∨ s.enc.transparent s.par.sentinel s.enc.pos.toNat = false) →
      ∃ t, step s = .next t ∧ s1.FaultedEnc t 9 s.enc.pos.toNat) ∧
    (s.enc.base.toNat + 65535 < s.enc.wp.toNat + 2 → 1 ≤ n → n ≤ 16383 →
      s.enc.pos.toNat + 4 * n < 64000 →
      (∀ k < n, s.enc.transparent s.par.sentinel (s.enc.pos.toNat + 4 * k) = true) →
      (s.enc.transparent s.par.sentinel (s.enc.pos.toNat + 4 * n) = false ∨ n = 16383) →
      ∃ t, step s = .next t ∧ s1.FaultedEnc t 9 (s.enc.pos.toNat + 4 * n)) ∧
    (s.enc.wp.toNat + 2 + n = s.enc.base.toNat + 65535 → n < 16383 → s.enc.base.toNat ≤ 776 →
      (∀ k ≤ n, s.enc.pos.toNat + 4 * k < 64000 ∧
        s.enc.transparent s.par.sentinel (s.enc.pos.toNat + 4 * k) = false ∧
        lookupColour s.enc.cim (s.enc.pix s.par.sentinel (s.enc.pos.toNat + 4 * k)) ≠ none) →
      ∃ t, step s = .next t ∧ s1.FaultedEnc t 9 (s.enc.pos.toNat + 4 * n))

/-- The end of planes 0 to 2: the EOP word, then the next plane from its offset; every other byte of EOUT
and all else stays (43_encoder_runs.md R216, R221). -/
def Obligations.EndOfPlaneEmitsEop : Prop :=
  ∀ s s1 : State, s.EncMoves s1 → Memory.wf s = true → s.enc.busy = true → s.enc.plane.toNat < 3 →
    64000 ≤ s.enc.pos.toNat → s.enc.base.toNat ≤ 776 →
    s.enc.wp.toNat + 2 ≤ s.enc.base.toNat + 65535 →
    ∃ t, step s = .next t ∧
      t = { s1 with enc := { s1.enc with
        plane := t.enc.plane, pos := t.enc.pos, wp := t.enc.wp, eout := t.enc.eout } } ∧
      t.enc.plane.toNat = s.enc.plane.toNat + 1 ∧ t.enc.pos.toNat = s.enc.plane.toNat + 1 ∧
      t.enc.wp.toNat = s.enc.wp.toNat + 2 ∧
      (memRead16 t.enc.eout s.enc.wp.toNat).toNat = 0 ∧
      (∀ a, a ≠ s.enc.wp.toNat → a ≠ s.enc.wp.toNat + 1 →
        memRead8 t.enc.eout a = memRead8 s.enc.eout a)

/-- The end of plane 3: the EOP word, then the length, the four header fields, and, when a palette is
embedded, its 768 DAC bytes and APAL (patched when PATCH_EN); the descriptor starts with PENDING 0
(43_encoder_runs.md R221, R224, R225, R226, 44_encoder_visibility.md R244). -/
def Obligations.LastPlaneWritesHeaderAndPalette : Prop :=
  ∀ (s s1 : State) (p : Vector Colour 256), s.EncMoves s1 → Memory.wf s = true →
    s.enc.busy = true → s.enc.plane.toNat = 3 → 64000 ≤ s.enc.pos.toNat →
    s.enc.hasPal.toNat ≤ 1 → s.enc.base.toNat = 8 + 768 * s.enc.hasPal.toNat →
    s.enc.base.toNat ≤ s.enc.wp.toNat → s.enc.wp.toNat + 2 ≤ s.enc.base.toNat + 65535 →
    p = (if s.enc.patchEn then patchPalette s.par.patchTable s.enc.xpal else s.enc.xpal) →
    ∃ t, step s = .next t ∧
      t = { s1 with enc := { s1.enc with
        plane := 4, row := 0, pending := 0, wp := t.enc.wp, csLen := t.enc.csLen,
        apal := if s.enc.hasPal = 1 then p else s.enc.apal, eout := t.enc.eout } } ∧
      t.enc.wp.toNat = s.enc.wp.toNat + 2 ∧
      t.enc.csLen.toNat = s.enc.wp.toNat + 2 - s.enc.base.toNat ∧
      memRead16 t.enc.eout s.enc.wp.toNat = 0 ∧
      memRead16 t.enc.eout 0 = s.enc.hasPal ∧ memRead16 t.enc.eout 2 = t.enc.csLen ∧
      memRead16 t.enc.eout 4 = s.enc.gw ∧ memRead16 t.enc.eout 6 = s.enc.gh ∧
      (s.enc.hasPal.toNat = 1 → ∀ i : Byte,
        (memRead8 t.enc.eout (8 + 3 * i.toNat)).toNat = (red (Table.get p i)).toNat / 4 ∧
        (memRead8 t.enc.eout (8 + 3 * i.toNat + 1)).toNat = (green (Table.get p i)).toNat / 4 ∧
        (memRead8 t.enc.eout (8 + 3 * i.toNat + 2)).toNat = (blue (Table.get p i)).toNat / 4) ∧
      (∀ a, s.enc.base.toNat ≤ a → a ≠ s.enc.wp.toNat → a ≠ s.enc.wp.toNat + 1 →
        memRead8 t.enc.eout a = memRead8 s.enc.eout a)

/-- One row of the descriptor: of a row with no opaque pixel, and of a row whose smallest and largest
opaque columns are `x0` and `x1`; the two values are written after the stream, every other byte of EOUT
and all else stays (44_encoder_visibility.md R241, R242, R243, R245). -/
def Obligations.DescriptorRowValues : Prop :=
  ∀ (s s1 : State) (y pending : Nat), s.EncMoves s1 → Memory.wf s = true → s.enc.busy = true →
    4 ≤ s.enc.plane.toNat → y = s.enc.row.toNat → y < 200 → s.enc.wp.toNat + 800 ≤ 67111 →
    pending = s.enc.pending.toNat →
    ∃ t skip hide, step s = .next t ∧
      t = { s1 with enc := { s1.enc with
        any := t.enc.any, minc := t.enc.minc, maxc := t.enc.maxc, pending := t.enc.pending,
        row := t.enc.row, eout := t.enc.eout } } ∧
      t.enc.row.toNat = y + 1 ∧
      (memRead16 t.enc.eout (s.enc.wp.toNat + 4 * y)).toNat = skip ∧
      (memRead16 t.enc.eout (s.enc.wp.toNat + 4 * y + 2)).toNat = hide ∧
      (∀ a, a < s.enc.wp.toNat + 4 * y ∨ s.enc.wp.toNat + 4 * y + 4 ≤ a →
        memRead8 t.enc.eout a = memRead8 s.enc.eout a) ∧
      ((∀ x < 320, s.enc.transparent s.par.sentinel (320 * y + x) = true) →
        skip = (pending + 320) / 4 ∧ hide = 0 ∧ t.enc.pending.toNat = 0) ∧
      (∀ x0 x1, x0 ≤ x1 → x1 < 320 →
        s.enc.transparent s.par.sentinel (320 * y + x0) = false →
        s.enc.transparent s.par.sentinel (320 * y + x1) = false →
        (∀ x < 320, s.enc.transparent s.par.sentinel (320 * y + x) = false → x0 ≤ x ∧ x ≤ x1) →
        skip = (pending + x0 / 4 * 4) / 4 ∧ hide = ((x1 + 4) / 4 * 4 - x0 / 4 * 4) / 4 ∧
          t.enc.pending.toNat = 320 - (x1 + 4) / 4 * 4)

/-- The sum law, row by row: four times what a row stores, and what it carries on, is one row more than
what it was handed; and the ranges of the stored values (44_encoder_visibility.md R246, R247). -/
def Obligations.DescriptorRowSumLaw : Prop :=
  ∀ (s s1 : State) (y skip hide : Nat) (t : State), s.EncMoves s1 → Memory.wf s = true →
    s.enc.busy = true → 4 ≤ s.enc.plane.toNat → y = s.enc.row.toNat → y < 200 →
    s.enc.wp.toNat + 800 ≤ 67111 → s.enc.pending.toNat ≤ 316 → s.enc.pending.toNat % 4 = 0 →
    step s = .next t →
    skip = (memRead16 t.enc.eout (s.enc.wp.toNat + 4 * y)).toNat →
    hide = (memRead16 t.enc.eout (s.enc.wp.toNat + 4 * y + 2)).toNat →
    4 * (skip + hide) + t.enc.pending.toNat = s.enc.pending.toNat + 320 ∧
      skip ≤ 159 ∧ hide ≤ 80 ∧ t.enc.pending.toNat ≤ 316 ∧ t.enc.pending.toNat % 4 = 0

/-- A fully transparent canvas, without palette: 209 steps after RUN the file is there, 816 bytes, four
EOP words as its stream, and every descriptor row (80, 0) (43_encoder_runs.md R216 to R228,
44_encoder_visibility.md R242, R247, 95_test_vectors.md S5). The number of steps is the model's (log 2). -/
def Obligations.TransparentCanvasEncodes : Prop :=
  ∀ s u : State, Memory.wf s = true → s.agenda = [] → s.dec.busy = false → s.enc.busy = false →
    s.enc.palv = false → s.enc.gw.toNat ≤ 320 → s.enc.gh.toNat ≤ 200 →
    (∀ pos < 64000, s.enc.transparent s.par.sentinel pos = true) → exec .runEnc s = .next u →
    ∃ t, Sys2Proof.core.run 209 u = .next t ∧
      t.enc.busy = false ∧ t.enc.done = true ∧ t.enc.err = false ∧
      t.enc.outLen = 816 ∧ t.enc.hasPal = 0 ∧ t.enc.csLen = 8 ∧
      memRead16 t.enc.eout 0 = 0 ∧ memRead16 t.enc.eout 2 = 8 ∧
      memRead16 t.enc.eout 4 = s.enc.gw ∧ memRead16 t.enc.eout 6 = s.enc.gh ∧
      (∀ k < 4, memRead16 t.enc.eout (8 + 2 * k) = 0) ∧
      (∀ y < 200, memRead16 t.enc.eout (16 + 4 * y) = 80 ∧
        memRead16 t.enc.eout (16 + 4 * y + 2) = 0)

/-- The finish steps: of a decode, BUSY off and DONE on; of an encode the total length too; nothing else
(41_decoder_sequence.md R160, 43_encoder_runs.md R227, R228). -/
def Obligations.FinishStepsSetDone : Prop :=
  ∀ s s1 : State,
    (s.DecMoves s1 → s.dec.busy = true → 4 ≤ s.dec.plane.toNat →
      step s = .next { s1 with dec := { s1.dec with busy := false, done := true } }) ∧
    (s.EncMoves s1 → s.enc.busy = true → 4 ≤ s.enc.plane.toNat → 200 ≤ s.enc.row.toNat →
      s.enc.base.toNat + s.enc.csLen.toNat + 800 ≤ 67111 →
      ∃ t, step s = .next t ∧
        t = { s1 with enc := { s1.enc with busy := false, done := true, outLen := t.enc.outLen } } ∧
        t.enc.outLen.toNat = s.enc.base.toNat + s.enc.csLen.toNat + 800)

/-! ## The host's accesses and reset -/

/-- While an engine is busy, every access of the host to it but a read of STATUS changes nothing of the
machine (70_reset_and_hazards.md R309, R312; where a read's value goes is log 10). -/
def Obligations.BusyEngineIsClosedToHost : Prop :=
  ∀ (s : State) (turns : List Turn) (a : HostAccess), s.agenda = .host a :: turns →
    (s.regs a.engine).busy = true →
    ∃ t, step s = .next t ∧
      t = { s with agenda := turns, rdata := t.rdata, free := t.free } ∧
      ((∃ e, a = .readReg e 2) → t.free = s.free ∧ t.rdata.toNat % 2 = 1)

/-- Register reads of an idle engine return the fields of the register table; CMD and the numbers from 13
on read 0 (10_state.md R40 to R50; where a read's value goes is log 10). -/
def Obligations.HostReadsRegisterFields : Prop :=
  ∀ (s : State) (turns : List Turn) (e : Engine) (n : Nat) (r : EngineRegs),
    s.agenda = .host (.readReg e n) :: turns → (s.regs e).busy = false → r = s.regs e →
    ∃ v, step s = .next { s with agenda := turns, rdata := v } ∧
      (n = 0 → v = 0) ∧
      (n = 1 → v.toNat = r.palv.toNat + 2 * r.patchEn.toNat) ∧
      (n = 2 → v.toNat = r.busy.toNat + 2 * r.done.toNat + 4 * r.err.toNat) ∧
      (n = 3 → v.toNat = r.cause.toNat) ∧ (n = 4 → v.toNat = r.epc.toNat) ∧
      (n = 5 → v = r.arg0) ∧ (n = 6 → v = r.arg1) ∧ (n = 7 → v = r.res) ∧
      (n = 8 → (e = .dec → v.toNat = s.dec.inLen.toNat) ∧ (e = .enc → v.toNat = s.enc.outLen.toNat)) ∧
      (n = 9 → v.toNat = r.hasPal.toNat) ∧ (n = 10 → v.toNat = r.csLen.toNat) ∧
      (n = 11 → (e = .dec → v.toNat = s.dec.aw.toNat) ∧ (e = .enc → v.toNat = s.enc.gw.toNat)) ∧
      (n = 12 → (e = .dec → v.toNat = s.dec.ah.toNat) ∧ (e = .enc → v.toNat = s.enc.gh.toNat)) ∧
      (13 ≤ n → v = 0)

/-- Register writes of an idle engine: CTRL, ARG0, ARG1, D_INLEN with its bound, E_GW and E_GH; every
other number from 1 on is read only or does not exist (10_state.md R40 to R50). -/
def Obligations.HostWritesRegisterFields : Prop :=
  ∀ (s : State) (turns : List Turn) (e : Engine) (n : Nat) (v : Word32) (r : EngineRegs),
    s.agenda = .host (.writeReg e n v) :: turns → (s.regs e).busy = false → r = s.regs e → 1 ≤ n →
    ∃ t, step s = .next t ∧
      (n = 1 → t = State.setRegs { s with agenda := turns } e
        { r with palv := v.getLsbD 0, patchEn := v.getLsbD 1 }) ∧
      (n = 5 → t = State.setRegs { s with agenda := turns } e { r with arg0 := v }) ∧
      (n = 6 → t = State.setRegs { s with agenda := turns } e { r with arg1 := v }) ∧
      (n = 8 → e = .dec →
        t = { s with agenda := turns, dec := { s.dec with inLen := t.dec.inLen } } ∧
        t.dec.inLen.toNat = min (v.toNat % 131072) 67111) ∧
      (n = 11 → e = .enc →
        t = { s with agenda := turns, enc := { s.enc with gw := BitVec.ofNat 16 v.toNat } }) ∧
      (n = 12 → e = .enc →
        t = { s with agenda := turns, enc := { s.enc with gh := BitVec.ofNat 16 v.toNat } }) ∧
      (n ∉ [1, 5, 6, 8, 11, 12] → t = { s with agenda := turns }) ∧
      (n = 8 → e = .enc → t = { s with agenda := turns }) ∧
      ((n = 11 ∨ n = 12) → e = .dec → t = { s with agenda := turns })

/-- The host's writes of the spaces and tables of an idle engine: DIN, GRID, AUX, XPAL and CIM take the
value at the one address named, an address outside the space takes nothing, CANVAS, EOUT and APAL take no
write; nothing else of the machine changes (10_state.md R55, R60, 20_memory.md R71 to R75, R83; which tables
the host may write, and a map entry as one word with `valid` in bit 24, are log 9).

Its reads of an idle engine: CANVAS inside the crop window (41_decoder_sequence.md R161), EOUT, AUX, XPAL,
APAL and CIM return what stands there; every read leaves the machine as it is, its latch and the counter of
free values apart, and a read that is refused moves that counter on (log 9, log 10, log 23). -/
def Obligations.HostAccessesSpaces : Prop :=
  (∀ (s : State) (turns : List Turn) (space : Space) (a : Nat) (v : Word32), Memory.wf s = true →
    s.agenda = .host (.write space a v) :: turns → (s.regs space.engine).busy = false →
    ∃ t, step s = .next t ∧
      (space = .din →
        t = { s with agenda := turns, dec := { s.dec with din := t.dec.din } } ∧
        (a < 67111 → (memRead8 t.dec.din a).toNat = v.toNat % 256) ∧
        (∀ b, b ≠ a ∨ 67111 ≤ a → memRead8 t.dec.din b = memRead8 s.dec.din b)) ∧
      (space = .grid →
        t = { s with agenda := turns, enc := { s.enc with grid := t.enc.grid } } ∧
        (a < 64000 → (Cells.read s.par.sentinel t.enc.grid a).toNat = v.toNat % 16777216) ∧
        (∀ b, b ≠ a ∨ 64000 ≤ a → Cells.read s.par.sentinel t.enc.grid b
          = Cells.read s.par.sentinel s.enc.grid b)) ∧
      (∀ e, space = .aux e →
        t = State.setRegs { s with agenda := turns } e { s.regs e with aux := (t.regs e).aux } ∧
        (a < 1024 → (memRead8 (t.regs e).aux a).toNat = v.toNat % 256) ∧
        (∀ b, b ≠ a ∨ 1024 ≤ a → memRead8 (t.regs e).aux b = memRead8 (s.regs e).aux b)) ∧
      (∀ e, space = .xpal e →
        t = State.setRegs { s with agenda := turns } e { s.regs e with xpal := (t.regs e).xpal } ∧
        ∀ i : Byte,
          (i.toNat = a → (Table.get (t.regs e).xpal i).toNat = v.toNat % 16777216) ∧
          (i.toNat ≠ a → Table.get (t.regs e).xpal i = Table.get (s.regs e).xpal i)) ∧
      (∀ e, space = .cim e →
        t = State.setRegs { s with agenda := turns } e { s.regs e with cim := (t.regs e).cim } ∧
        ∀ i : Byte,
          (i.toNat = a → (Table.get (t.regs e).cim i).colour.toNat = v.toNat % 16777216 ∧
            (Table.get (t.regs e).cim i).valid.toNat = v.toNat / 16777216 % 2) ∧
          (i.toNat ≠ a → Table.get (t.regs e).cim i = Table.get (s.regs e).cim i)) ∧
      ((space = .canvas ∨ space = .eout ∨ ∃ e, space = .apal e) → t = { s with agenda := turns })) ∧
  (∀ (s : State) (turns : List Turn) (space : Space) (a : Nat),
    s.agenda = .host (.read space a) :: turns → (s.regs space.engine).busy = false →
    ∃ t, step s = .next t ∧
      t = { s with agenda := turns, rdata := t.rdata, free := t.free } ∧
      (space = .canvas → a < 64000 →
        (a % 320 < s.dec.aw.toNat ∧ a / 320 < s.dec.ah.toNat →
          t.free = s.free ∧ t.rdata.toNat = (Cells.read s.par.sentinel s.dec.canvas a).toNat) ∧
        (s.dec.aw.toNat ≤ a % 320 ∨ s.dec.ah.toNat ≤ a / 320 → t.free = s.free + 1)) ∧
      (space = .eout → a < 67111 →
        t.free = s.free ∧ t.rdata.toNat = (memRead8 s.enc.eout a).toNat) ∧
      (∀ e, space = .aux e → a < 1024 →
        t.free = s.free ∧ t.rdata.toNat = (memRead8 (s.regs e).aux a).toNat) ∧
      (∀ (e : Engine) (i : Byte), i.toNat = a →
        (space = .xpal e →
          t.free = s.free ∧ t.rdata.toNat = (Table.get (s.regs e).xpal i).toNat) ∧
        (space = .apal e →
          t.free = s.free ∧ t.rdata.toNat = (Table.get (s.regs e).apal i).toNat) ∧
        (space = .cim e →
          t.free = s.free ∧ t.rdata.toNat = (Table.get (s.regs e).cim i).colour.toNat
            + 16777216 * (Table.get (s.regs e).cim i).valid.toNat)) ∧
      ((space = .din ∨ space = .grid ∨ space.size ≤ a) → t.free = s.free + 1))

/-- The reset event makes both engines idle, with control and status registers 0, XPAL black and CIM
invalid (10_state.md R65, 70_reset_and_hazards.md R300); the parameters and the moves to come stay
(log 1, log 18). -/
def Obligations.ResetEventValues : Prop :=
  ∀ (s : State) (turns : List Turn) (e : Engine), s.agenda = .reset :: turns →
    ∃ t, step s = .next t ∧ t.par = s.par ∧ t.agenda = turns ∧
      (t.regs e).palv = false ∧ (t.regs e).patchEn = false ∧ (t.regs e).busy = false ∧
      (t.regs e).done = false ∧ (t.regs e).err = false ∧ (t.regs e).cause = 0 ∧
      (t.regs e).epc = 0 ∧ (t.regs e).arg0 = 0 ∧ (t.regs e).arg1 = 0 ∧ (t.regs e).res = 0 ∧
      (t.regs e).hasPal = 0 ∧ (t.regs e).csLen = 0 ∧
      (∀ i, Table.get (t.regs e).xpal i = 0) ∧
      (∀ i, (Table.get (t.regs e).cim i).valid = false) ∧
      t.dec.inLen = 0 ∧ t.dec.aw = 0 ∧ t.dec.ah = 0 ∧
      t.enc.outLen = 0 ∧ t.enc.gw = 0 ∧ t.enc.gh = 0

/-! ## Whole-machine rules -/

/-- An instruction of one engine leaves the other engine, the parameters and the moves to come as they
are (10_state.md R20, 60_exceptions.md R282). -/
def Obligations.EnginesShareNothing : Prop :=
  ∀ (i : Instr) (s t : State), exec i s = .next t →
    (engineOf i = .dec → t.enc = s.enc) ∧ (engineOf i = .enc → t.dec = s.dec) ∧
    t.par = s.par ∧ t.agenda = s.agenda ∧ t.rdata = s.rdata

/-- The invariant of the machine holds after reset. -/
def Obligations.ResetMeetsInvariant : Prop := State.reset.Inv

/-- Every step keeps every space in canonical form, inside its size (20_memory.md R70, R83). -/
def Obligations.StepKeepsMemoryCanonical : Prop :=
  ∀ s t : State, Memory.wf s = true → step s = .next t → Memory.wf t = true

/-- Every step keeps the status protocol of both engines (10_state.md R42, R43, R44). -/
def Obligations.StepKeepsStatusProtocol : Prop :=
  ∀ s t : State, s.StatusOk → step s = .next t → t.StatusOk

/-- Every step keeps a running decode inside its region and its cursor inside its bound, so the cursor
stays below 2^31 and never wraps (10_state.md R21, R25, 40_decoder_commands.md R136). -/
def Obligations.StepKeepsDecoderBounds : Prop :=
  ∀ s t : State, s.dec.RegionOk → s.dec.CursorOk → step s = .next t →
    t.dec.RegionOk ∧ t.dec.CursorOk ∧ (t.dec.busy = true → t.dec.cur.toNat < 2 ^ 31)

/-- Every step keeps the map of a running decode true to its active palette
(42_palette_and_colormap.md R196, R201). -/
def Obligations.StepKeepsMapTrueToPalette : Prop :=
  ∀ s t : State, s.dec.MapOk → step s = .next t → t.dec.MapOk

/-- Every step keeps the registers of a running encode inside their bounds (10_state.md R22,
43_encoder_runs.md R215, R224, 44_encoder_visibility.md R246). -/
def Obligations.StepKeepsEncoderBounds : Prop :=
  ∀ s t : State, s.enc.WalkOk → step s = .next t → t.enc.WalkOk

/-- From a state that meets the invariant every step has a next state: no run stops, and no engine ever
forms an address outside a space (20_memory.md R83, 70_reset_and_hazards.md R310). -/
def Obligations.InvariantStatesNeverStop : Prop :=
  ∀ s : State, s.Inv → ∃ t, step s = .next t

/-- A running decode ends: within 32769 steps DEC is idle (40_decoder_commands.md R137,
70_reset_and_hazards.md R310). The step count is that of the model's steps (log 2), with no host move
between them (log 3). -/
def Obligations.DecodeEnds : Prop :=
  ∀ s : State, s.Inv → s.agenda = [] → s.dec.busy = true →
    ∃ k t, k ≤ 32769 ∧ Sys2Proof.core.run k s = .next t ∧ t.dec.busy = false

/-- A running encode ends: within 64205 steps ENC is idle (70_reset_and_hazards.md R310). The step
count is that of the model's steps (log 2), with no host move between them (log 3). -/
def Obligations.EncodeEnds : Prop :=
  ∀ s : State, s.Inv → s.agenda = [] → s.dec.busy = false → s.enc.busy = true →
    ∃ k t, k ≤ 64205 ∧ Sys2Proof.core.run k s = .next t ∧ t.enc.busy = false
end

