-- ==== Sys2Proof/Laws/Memory.lean ====
section
/-! SUPPORT. The laws of spaces in canonical form: read after write, and that every operation keeps the
form, so that equal memories are equal data. -/

namespace Sys2Proof.Machine.Cells

variable {w : Nat} {d : BitVec w} {size : Nat}

@[simp] theorem read_nil (a : Nat) : read d [] a = d := rfl

theorem wfFrom_cons {lo k : Nat} {v : BitVec w} {m : List (Nat × BitVec w)} :
    wfFrom d size lo ((k, v) :: m) = true ↔
      lo ≤ k ∧ k < size ∧ v ≠ d ∧ wfFrom d size (k + 1) m = true := by
  simp [wfFrom, and_assoc]

theorem wfFrom_mono {lo lo' : Nat} (hle : lo' ≤ lo) :
    ∀ {m : List (Nat × BitVec w)}, wfFrom d size lo m = true → wfFrom d size lo' m = true
  | [], _ => rfl
  | (_, _) :: _, h => by
    obtain ⟨h1, h2, h3, h4⟩ := wfFrom_cons.1 h
    exact wfFrom_cons.2 ⟨hle.trans h1, h2, h3, h4⟩

theorem read_below {lo a : Nat} (ha : a < lo) :
    ∀ {m : List (Nat × BitVec w)}, wfFrom d size lo m = true → read d m a = d
  | [], _ => rfl
  | (k, v) :: m, h => by
    obtain ⟨h1, -, -, h4⟩ := wfFrom_cons.1 h
    rw [read, if_neg (by omega)]
    exact read_below (by omega) h4

theorem read_insert_same (a : Nat) (x : BitVec w) :
    ∀ m : List (Nat × BitVec w), read d (insert m a x) a = x
  | [] => by simp [insert, read]
  | (k, v) :: m => by
    by_cases h1 : a < k
    · simp [insert, h1, read]
    · by_cases h2 : k = a
      · simp [insert, h2, read]
      · simp [insert, h1, h2, read, read_insert_same a x m]

theorem read_insert_ne {a b : Nat} (x : BitVec w) (hne : b ≠ a) :
    ∀ m : List (Nat × BitVec w), read d (insert m a x) b = read d m b
  | [] => by simp [insert, read, Ne.symm hne]
  | (k, v) :: m => by
    by_cases h1 : a < k
    · simp [insert, h1, read, Ne.symm hne]
    · by_cases h2 : k = a
      · subst h2; simp [insert, read, Ne.symm hne]
      · simp [insert, h1, h2, read, read_insert_ne x hne m]

theorem read_erase_same {a : Nat} :
    ∀ {m : List (Nat × BitVec w)} {lo : Nat}, wfFrom d size lo m = true → read d (erase m a) a = d
  | [], _, _ => rfl
  | (k, v) :: m, _, h => by
    obtain ⟨-, -, -, h4⟩ := wfFrom_cons.1 h
    by_cases h1 : a < k
    · rw [erase, if_pos h1, read, if_neg (by omega)]
      exact read_below (by omega) h4
    · by_cases h2 : k = a
      · subst h2
        simpa [erase] using read_below (Nat.lt_succ_self k) h4
      · simp [erase, h1, h2, read, read_erase_same h4]

theorem read_erase_ne {a b : Nat} (hne : b ≠ a) :
    ∀ m : List (Nat × BitVec w), read d (erase m a) b = read d m b
  | [] => rfl
  | (k, v) :: m => by
    by_cases h1 : a < k
    · simp [erase, h1]
    · by_cases h2 : k = a
      · subst h2; simp [erase, read, Ne.symm hne]
      · simp [erase, h1, h2, read, read_erase_ne hne m]

/-- Read after write at the same address. -/
theorem read_write_same {m : List (Nat × BitVec w)} (h : wf d size m = true) (a : Nat) (x : BitVec w) :
    read d (write d m a x) a = x := by
  unfold write
  split
  · rename_i hx; rw [read_erase_same h, hx]
  · exact read_insert_same a x m

/-- A write leaves every other address alone. -/
theorem read_write_ne (m : List (Nat × BitVec w)) {a b : Nat} (x : BitVec w) (hne : b ≠ a) :
    read d (write d m a x) b = read d m b := by
  unfold write
  split
  · exact read_erase_ne hne m
  · exact read_insert_ne x hne m

theorem wfFrom_insert {a : Nat} {x : BitVec w} (ha : a < size) (hx : x ≠ d) :
    ∀ {m : List (Nat × BitVec w)} {lo : Nat}, lo ≤ a → wfFrom d size lo m = true →
      wfFrom d size lo (insert m a x) = true
  | [], _, hlo, _ => wfFrom_cons.2 ⟨hlo, ha, hx, rfl⟩
  | (k, v) :: m, _, hlo, h => by
    obtain ⟨h1, h2, h3, h4⟩ := wfFrom_cons.1 h
    by_cases c1 : a < k
    · rw [insert, if_pos c1]
      exact wfFrom_cons.2 ⟨hlo, ha, hx, wfFrom_cons.2 ⟨c1, h2, h3, h4⟩⟩
    · by_cases c2 : k = a
      · subst c2
        rw [insert, if_neg c1, if_pos rfl]
        exact wfFrom_cons.2 ⟨h1, h2, hx, h4⟩
      · rw [insert, if_neg c1, if_neg c2]
        exact wfFrom_cons.2 ⟨h1, h2, h3, wfFrom_insert ha hx (by omega) h4⟩

theorem wfFrom_erase {a : Nat} :
    ∀ {m : List (Nat × BitVec w)} {lo : Nat}, wfFrom d size lo m = true →
      wfFrom d size lo (erase m a) = true
  | [], _, _ => rfl
  | (k, v) :: m, _, h => by
    obtain ⟨h1, h2, h3, h4⟩ := wfFrom_cons.1 h
    by_cases c1 : a < k
    · rwa [erase, if_pos c1]
    · by_cases c2 : k = a
      · rw [erase, if_neg c1, if_pos c2]
        exact wfFrom_mono (by omega) h4
      · rw [erase, if_neg c1, if_neg c2]
        exact wfFrom_cons.2 ⟨h1, h2, h3, wfFrom_erase h4⟩

/-- A write inside the space keeps the canonical form. -/
theorem wf_write {m : List (Nat × BitVec w)} (h : wf d size m = true) {a : Nat} (ha : a < size)
    (x : BitVec w) : wf d size (write d m a x) = true := by
  unfold write
  split
  · exact wfFrom_erase h
  · rename_i hx; exact wfFrom_insert ha hx (Nat.zero_le a) h

/-- A list of writes inside the space keeps the canonical form. -/
theorem wf_foldl_write : ∀ (cells : List (Nat × BitVec w)) {m : List (Nat × BitVec w)},
    (∀ c ∈ cells, c.1 < size) → wf d size m = true →
      wf d size (cells.foldl (fun m c => write d m c.1 c.2) m) = true
  | [], _, _, h => h
  | c :: cells, _, hc, h =>
    wf_foldl_write cells (fun c' hc' => hc c' (List.mem_cons_of_mem _ hc'))
      (wf_write h (hc c (List.mem_cons_self ..)) c.2)

/-- Whatever the cells, their canonical form is canonical. -/
theorem wf_ofList (cells : List (Nat × BitVec w)) : wf d size (ofList d size cells) = true :=
  wf_foldl_write _ (by simp) rfl

theorem eq_of_read_eq_from : ∀ {m m' : List (Nat × BitVec w)} {lo : Nat},
    wfFrom d size lo m = true → wfFrom d size lo m' = true → (∀ a, read d m a = read d m' a) → m = m'
  | [], [], _, _, _, _ => rfl
  | [], (k, v) :: m', _, _, h', he => by
    obtain ⟨-, -, h3, -⟩ := wfFrom_cons.1 h'
    exact absurd (by simpa [read] using (he k).symm) h3
  | (k, v) :: m, [], _, h, _, he => by
    obtain ⟨-, -, h3, -⟩ := wfFrom_cons.1 h
    exact absurd (by simpa [read] using he k) h3
  | (k, v) :: m, (k', v') :: m', _, h, h', he => by
    obtain ⟨-, -, h3, h4⟩ := wfFrom_cons.1 h
    obtain ⟨-, -, h3', h4'⟩ := wfFrom_cons.1 h'
    have hk : k = k' := by
      rcases Nat.lt_trichotomy k k' with c | c | c
      · have := he k
        rw [read, if_pos rfl, read, if_neg (by omega), read_below (by omega) h4'] at this
        exact absurd this h3
      · exact c
      · have := he k'
        rw [read, if_neg (by omega), read_below (by omega) h4, read, if_pos rfl] at this
        exact absurd this.symm h3'
    subst hk
    have hv : v = v' := by simpa [read] using he k
    subst hv
    have ht : m = m' := eq_of_read_eq_from h4 h4' fun a => by
      by_cases c : k = a
      · subst c
        rw [read_below (Nat.lt_succ_self k) h4, read_below (Nat.lt_succ_self k) h4']
      · simpa [read, c] using he a
    rw [ht]

/-- Two spaces in canonical form that read alike everywhere are the same data. -/
theorem eq_of_read_eq {m m' : List (Nat × BitVec w)} (h : wf d size m = true)
    (h' : wf d size m' = true) (he : ∀ a, read d m a = read d m' a) : m = m' :=
  eq_of_read_eq_from h h' he

end Sys2Proof.Machine.Cells

namespace Sys2Proof.Machine

theorem memRead8_memWrite8_same {size : Nat} {m : ByteSpace} (h : Cells.wf unlistedByte size m = true)
    (a : Nat) (v : Byte) : memRead8 (memWrite8 m a v) a = v := Cells.read_write_same h a v

theorem memRead8_memWrite8_ne (m : ByteSpace) {a b : Nat} (v : Byte) (hne : b ≠ a) :
    memRead8 (memWrite8 m a v) b = memRead8 m b := Cells.read_write_ne m v hne

theorem wf_memWrite8 {size : Nat} {m : ByteSpace} (h : Cells.wf unlistedByte size m = true) {a : Nat}
    (ha : a < size) (v : Byte) : Cells.wf unlistedByte size (memWrite8 m a v) = true :=
  Cells.wf_write h ha v

theorem wf_memWrite16 {size : Nat} {m : ByteSpace} (h : Cells.wf unlistedByte size m = true) {a : Nat}
    (ha : a + 1 < size) (v : Word16) : Cells.wf unlistedByte size (memWrite16 m a v) = true :=
  wf_memWrite8 (wf_memWrite8 h (by omega) _) ha _

theorem memRead8_memWrite16_ne (m : ByteSpace) {a b : Nat} (v : Word16) (h0 : b ≠ a) (h1 : b ≠ a + 1) :
    memRead8 (memWrite16 m a v) b = memRead8 m b := by
  rw [memWrite16, memRead8_memWrite8_ne _ _ h1, memRead8_memWrite8_ne _ _ h0]

/-- A word written is the word read back (20_memory.md R76, R77). -/
theorem memRead16_memWrite16_same {size : Nat} {m : ByteSpace}
    (h : Cells.wf unlistedByte size m = true) {a : Nat} (ha : a + 1 < size) (v : Word16) :
    memRead16 (memWrite16 m a v) a = v := by
  have h1 := wf_memWrite8 h (show a < size by omega) (v.extractLsb' 0 8)
  rw [memRead16, memWrite16, memRead8_memWrite8_same h1, memRead8_memWrite8_ne _ _ (by omega),
    memRead8_memWrite8_same h, wordOfBytes]
  ext i hi
  simp only [BitVec.getElem_append, BitVec.getElem_extractLsb']
  split
  · simp
    rw [← BitVec.getLsbD_eq_getElem]
  · simp
    rw [show 8 + (i - 8) = i by omega, ← BitVec.getLsbD_eq_getElem]

theorem wf_writeTriplet {size : Nat} {m : ByteSpace} (h : Cells.wf unlistedByte size m = true)
    {a : Nat} (ha : a + 2 < size) (c : Colour) :
    Cells.wf unlistedByte size (writeTriplet m a c) = true :=
  wf_memWrite8 (wf_memWrite8 (wf_memWrite8 h (by omega) _) (by omega) _) ha _

theorem memRead8_writeTriplet_ne (m : ByteSpace) {a b : Nat} (c : Colour) (hb : b < a ∨ a + 3 ≤ b) :
    memRead8 (writeTriplet m a c) b = memRead8 m b := by
  rw [writeTriplet, memRead8_memWrite8_ne _ _ (by omega), memRead8_memWrite8_ne _ _ (by omega),
    memRead8_memWrite8_ne _ _ (by omega)]

/-- A colour is its three channels (00_scope.md R14). -/
theorem rgb_channels (c : Colour) : rgb (red c) (green c) (blue c) = c := by
  apply BitVec.eq_of_getLsbD_eq
  intro i hi
  simp only [rgb, red, green, blue, BitVec.getLsbD_append, BitVec.getLsbD_extractLsb']
  by_cases h1 : i < 8
  · simp [h1]
  · by_cases h2 : i < 16
    · simp [h1, show i - 8 < 8 by omega, show 8 + (i - 8) = i by omega]
    · simp [h1, show ¬i - 8 < 8 by omega, show i - 8 - 8 < 8 by omega,
        show 16 + (i - 8 - 8) = i by omega]

/-- A colour written as a triplet is the colour read back. -/
theorem readTriplet_writeTriplet_same {size : Nat} {m : ByteSpace}
    (h : Cells.wf unlistedByte size m = true) {a : Nat} (ha : a + 2 < size) (c : Colour) :
    readTriplet (writeTriplet m a c) a = c := by
  have h1 := wf_memWrite8 h (show a < size by omega) (red c)
  have h2 := wf_memWrite8 h1 (show a + 1 < size by omega) (green c)
  rw [readTriplet, writeTriplet, memRead8_memWrite8_same h2,
    memRead8_memWrite8_ne _ _ (show a ≠ a + 2 by omega),
    memRead8_memWrite8_ne _ _ (show a ≠ a + 1 by omega), memRead8_memWrite8_same h,
    memRead8_memWrite8_ne _ _ (show a + 1 ≠ a + 2 by omega), memRead8_memWrite8_same h1,
    rgb_channels]

namespace Table

variable {α : Type}

@[simp] theorem get_set_same (t : Vector α 256) (i : Byte) (x : α) : get (set t i x) i = x := by
  simp [get, set]

theorem get_set_ne (t : Vector α 256) {i j : Byte} (x : α) (h : j ≠ i) :
    get (set t i x) j = get t j := by
  have : i.toNat ≠ j.toNat := fun e => h (BitVec.eq_of_toNat_eq e.symm)
  simp [get, set, Vector.getElem_set_ne, this]

@[simp] theorem get_ofFn (f : Byte → α) (i : Byte) : get (ofFn f) i = f i := by
  simp [get, ofFn]

/-- Two tables with the same entries are the same data. -/
theorem ext {t u : Vector α 256} (h : ∀ i, get t i = get u i) : t = u := by
  apply Vector.ext
  intro i hi
  have := h (BitVec.ofNat 8 i)
  simpa [get, Nat.mod_eq_of_lt hi] using this

@[simp] theorem get_clearMap (m : Vector CimEntry 256) (i : Byte) :
    get (clearMap m) i = { get m i with valid := false } := by
  simp [clearMap]

end Table

end Sys2Proof.Machine
end

