-- ==== Sys2Proof/Laws/State.lean ====
section
/-! SUPPORT. One lemma for each field of each update of a state, so that no later proof unfolds a record
update. -/

namespace Sys2Proof.Machine

/-! ## The control registers of an engine -/

@[simp] theorem EngineRegs.startRun_palv (r : EngineRegs) :
    (r.startRun).palv = r.palv := rfl
@[simp] theorem EngineRegs.startRun_patchEn (r : EngineRegs) :
    (r.startRun).patchEn = r.patchEn := rfl
@[simp] theorem EngineRegs.startRun_busy (r : EngineRegs) :
    (r.startRun).busy = true := rfl
@[simp] theorem EngineRegs.startRun_done (r : EngineRegs) :
    (r.startRun).done = false := rfl
@[simp] theorem EngineRegs.startRun_err (r : EngineRegs) :
    (r.startRun).err = false := rfl
@[simp] theorem EngineRegs.startRun_cause (r : EngineRegs) :
    (r.startRun).cause = 0 := rfl
@[simp] theorem EngineRegs.startRun_epc (r : EngineRegs) :
    (r.startRun).epc = 0 := rfl
@[simp] theorem EngineRegs.startRun_arg0 (r : EngineRegs) :
    (r.startRun).arg0 = r.arg0 := rfl
@[simp] theorem EngineRegs.startRun_arg1 (r : EngineRegs) :
    (r.startRun).arg1 = r.arg1 := rfl
@[simp] theorem EngineRegs.startRun_res (r : EngineRegs) :
    (r.startRun).res = r.res := rfl
@[simp] theorem EngineRegs.startRun_hasPal (r : EngineRegs) :
    (r.startRun).hasPal = r.hasPal := rfl
@[simp] theorem EngineRegs.startRun_csLen (r : EngineRegs) :
    (r.startRun).csLen = r.csLen := rfl
@[simp] theorem EngineRegs.startRun_xpal (r : EngineRegs) :
    (r.startRun).xpal = r.xpal := rfl
@[simp] theorem EngineRegs.startRun_apal (r : EngineRegs) :
    (r.startRun).apal = r.apal := rfl
@[simp] theorem EngineRegs.startRun_cim (r : EngineRegs) :
    (r.startRun).cim = r.cim := rfl
@[simp] theorem EngineRegs.startRun_aux (r : EngineRegs) :
    (r.startRun).aux = r.aux := rfl

@[simp] theorem EngineRegs.finishRun_palv (r : EngineRegs) :
    (r.finishRun).palv = r.palv := rfl
@[simp] theorem EngineRegs.finishRun_patchEn (r : EngineRegs) :
    (r.finishRun).patchEn = r.patchEn := rfl
@[simp] theorem EngineRegs.finishRun_busy (r : EngineRegs) :
    (r.finishRun).busy = false := rfl
@[simp] theorem EngineRegs.finishRun_done (r : EngineRegs) :
    (r.finishRun).done = true := rfl
@[simp] theorem EngineRegs.finishRun_err (r : EngineRegs) :
    (r.finishRun).err = r.err := rfl
@[simp] theorem EngineRegs.finishRun_cause (r : EngineRegs) :
    (r.finishRun).cause = r.cause := rfl
@[simp] theorem EngineRegs.finishRun_epc (r : EngineRegs) :
    (r.finishRun).epc = r.epc := rfl
@[simp] theorem EngineRegs.finishRun_arg0 (r : EngineRegs) :
    (r.finishRun).arg0 = r.arg0 := rfl
@[simp] theorem EngineRegs.finishRun_arg1 (r : EngineRegs) :
    (r.finishRun).arg1 = r.arg1 := rfl
@[simp] theorem EngineRegs.finishRun_res (r : EngineRegs) :
    (r.finishRun).res = r.res := rfl
@[simp] theorem EngineRegs.finishRun_hasPal (r : EngineRegs) :
    (r.finishRun).hasPal = r.hasPal := rfl
@[simp] theorem EngineRegs.finishRun_csLen (r : EngineRegs) :
    (r.finishRun).csLen = r.csLen := rfl
@[simp] theorem EngineRegs.finishRun_xpal (r : EngineRegs) :
    (r.finishRun).xpal = r.xpal := rfl
@[simp] theorem EngineRegs.finishRun_apal (r : EngineRegs) :
    (r.finishRun).apal = r.apal := rfl
@[simp] theorem EngineRegs.finishRun_cim (r : EngineRegs) :
    (r.finishRun).cim = r.cim := rfl
@[simp] theorem EngineRegs.finishRun_aux (r : EngineRegs) :
    (r.finishRun).aux = r.aux := rfl

@[simp] theorem EngineRegs.startTable_palv (r : EngineRegs) :
    (r.startTable).palv = r.palv := rfl
@[simp] theorem EngineRegs.startTable_patchEn (r : EngineRegs) :
    (r.startTable).patchEn = r.patchEn := rfl
@[simp] theorem EngineRegs.startTable_busy (r : EngineRegs) :
    (r.startTable).busy = true := rfl
@[simp] theorem EngineRegs.startTable_done (r : EngineRegs) :
    (r.startTable).done = r.done := rfl
@[simp] theorem EngineRegs.startTable_err (r : EngineRegs) :
    (r.startTable).err = false := rfl
@[simp] theorem EngineRegs.startTable_cause (r : EngineRegs) :
    (r.startTable).cause = 0 := rfl
@[simp] theorem EngineRegs.startTable_epc (r : EngineRegs) :
    (r.startTable).epc = 0 := rfl
@[simp] theorem EngineRegs.startTable_arg0 (r : EngineRegs) :
    (r.startTable).arg0 = r.arg0 := rfl
@[simp] theorem EngineRegs.startTable_arg1 (r : EngineRegs) :
    (r.startTable).arg1 = r.arg1 := rfl
@[simp] theorem EngineRegs.startTable_res (r : EngineRegs) :
    (r.startTable).res = r.res := rfl
@[simp] theorem EngineRegs.startTable_hasPal (r : EngineRegs) :
    (r.startTable).hasPal = r.hasPal := rfl
@[simp] theorem EngineRegs.startTable_csLen (r : EngineRegs) :
    (r.startTable).csLen = r.csLen := rfl
@[simp] theorem EngineRegs.startTable_xpal (r : EngineRegs) :
    (r.startTable).xpal = r.xpal := rfl
@[simp] theorem EngineRegs.startTable_apal (r : EngineRegs) :
    (r.startTable).apal = r.apal := rfl
@[simp] theorem EngineRegs.startTable_cim (r : EngineRegs) :
    (r.startTable).cim = r.cim := rfl
@[simp] theorem EngineRegs.startTable_aux (r : EngineRegs) :
    (r.startTable).aux = r.aux := rfl

@[simp] theorem EngineRegs.finishTable_palv (r : EngineRegs) :
    (r.finishTable).palv = r.palv := rfl
@[simp] theorem EngineRegs.finishTable_patchEn (r : EngineRegs) :
    (r.finishTable).patchEn = r.patchEn := rfl
@[simp] theorem EngineRegs.finishTable_busy (r : EngineRegs) :
    (r.finishTable).busy = false := rfl
@[simp] theorem EngineRegs.finishTable_done (r : EngineRegs) :
    (r.finishTable).done = r.done := rfl
@[simp] theorem EngineRegs.finishTable_err (r : EngineRegs) :
    (r.finishTable).err = r.err := rfl
@[simp] theorem EngineRegs.finishTable_cause (r : EngineRegs) :
    (r.finishTable).cause = r.cause := rfl
@[simp] theorem EngineRegs.finishTable_epc (r : EngineRegs) :
    (r.finishTable).epc = r.epc := rfl
@[simp] theorem EngineRegs.finishTable_arg0 (r : EngineRegs) :
    (r.finishTable).arg0 = r.arg0 := rfl
@[simp] theorem EngineRegs.finishTable_arg1 (r : EngineRegs) :
    (r.finishTable).arg1 = r.arg1 := rfl
@[simp] theorem EngineRegs.finishTable_res (r : EngineRegs) :
    (r.finishTable).res = r.res := rfl
@[simp] theorem EngineRegs.finishTable_hasPal (r : EngineRegs) :
    (r.finishTable).hasPal = r.hasPal := rfl
@[simp] theorem EngineRegs.finishTable_csLen (r : EngineRegs) :
    (r.finishTable).csLen = r.csLen := rfl
@[simp] theorem EngineRegs.finishTable_xpal (r : EngineRegs) :
    (r.finishTable).xpal = r.xpal := rfl
@[simp] theorem EngineRegs.finishTable_apal (r : EngineRegs) :
    (r.finishTable).apal = r.apal := rfl
@[simp] theorem EngineRegs.finishTable_cim (r : EngineRegs) :
    (r.finishTable).cim = r.cim := rfl
@[simp] theorem EngineRegs.finishTable_aux (r : EngineRegs) :
    (r.finishTable).aux = r.aux := rfl

@[simp] theorem EngineRegs.raised_palv (r : EngineRegs) (c : Cause) (epc : Nat) :
    (r.raised c epc).palv = r.palv := rfl
@[simp] theorem EngineRegs.raised_patchEn (r : EngineRegs) (c : Cause) (epc : Nat) :
    (r.raised c epc).patchEn = r.patchEn := rfl
@[simp] theorem EngineRegs.raised_busy (r : EngineRegs) (c : Cause) (epc : Nat) :
    (r.raised c epc).busy = false := rfl
@[simp] theorem EngineRegs.raised_done (r : EngineRegs) (c : Cause) (epc : Nat) :
    (r.raised c epc).done = false := rfl
@[simp] theorem EngineRegs.raised_err (r : EngineRegs) (c : Cause) (epc : Nat) :
    (r.raised c epc).err = true := rfl
@[simp] theorem EngineRegs.raised_cause (r : EngineRegs) (c : Cause) (epc : Nat) :
    (r.raised c epc).cause = c.code := rfl
@[simp] theorem EngineRegs.raised_epc (r : EngineRegs) (c : Cause) (epc : Nat) :
    (r.raised c epc).epc = BitVec.ofNat 17 epc := rfl
@[simp] theorem EngineRegs.raised_arg0 (r : EngineRegs) (c : Cause) (epc : Nat) :
    (r.raised c epc).arg0 = r.arg0 := rfl
@[simp] theorem EngineRegs.raised_arg1 (r : EngineRegs) (c : Cause) (epc : Nat) :
    (r.raised c epc).arg1 = r.arg1 := rfl
@[simp] theorem EngineRegs.raised_res (r : EngineRegs) (c : Cause) (epc : Nat) :
    (r.raised c epc).res = r.res := rfl
@[simp] theorem EngineRegs.raised_hasPal (r : EngineRegs) (c : Cause) (epc : Nat) :
    (r.raised c epc).hasPal = r.hasPal := rfl
@[simp] theorem EngineRegs.raised_csLen (r : EngineRegs) (c : Cause) (epc : Nat) :
    (r.raised c epc).csLen = r.csLen := rfl
@[simp] theorem EngineRegs.raised_xpal (r : EngineRegs) (c : Cause) (epc : Nat) :
    (r.raised c epc).xpal = r.xpal := rfl
@[simp] theorem EngineRegs.raised_apal (r : EngineRegs) (c : Cause) (epc : Nat) :
    (r.raised c epc).apal = r.apal := rfl
@[simp] theorem EngineRegs.raised_cim (r : EngineRegs) (c : Cause) (epc : Nat) :
    (r.raised c epc).cim = r.cim := rfl
@[simp] theorem EngineRegs.raised_aux (r : EngineRegs) (c : Cause) (epc : Nat) :
    (r.raised c epc).aux = r.aux := rfl

@[simp] theorem EngineRegs.acknowledged_palv (r : EngineRegs) :
    (r.acknowledged).palv = r.palv := rfl
@[simp] theorem EngineRegs.acknowledged_patchEn (r : EngineRegs) :
    (r.acknowledged).patchEn = r.patchEn := rfl
@[simp] theorem EngineRegs.acknowledged_busy (r : EngineRegs) :
    (r.acknowledged).busy = r.busy := rfl
@[simp] theorem EngineRegs.acknowledged_done (r : EngineRegs) :
    (r.acknowledged).done = false := rfl
@[simp] theorem EngineRegs.acknowledged_err (r : EngineRegs) :
    (r.acknowledged).err = false := rfl
@[simp] theorem EngineRegs.acknowledged_cause (r : EngineRegs) :
    (r.acknowledged).cause = 0 := rfl
@[simp] theorem EngineRegs.acknowledged_epc (r : EngineRegs) :
    (r.acknowledged).epc = 0 := rfl
@[simp] theorem EngineRegs.acknowledged_arg0 (r : EngineRegs) :
    (r.acknowledged).arg0 = r.arg0 := rfl
@[simp] theorem EngineRegs.acknowledged_arg1 (r : EngineRegs) :
    (r.acknowledged).arg1 = r.arg1 := rfl
@[simp] theorem EngineRegs.acknowledged_res (r : EngineRegs) :
    (r.acknowledged).res = r.res := rfl
@[simp] theorem EngineRegs.acknowledged_hasPal (r : EngineRegs) :
    (r.acknowledged).hasPal = r.hasPal := rfl
@[simp] theorem EngineRegs.acknowledged_csLen (r : EngineRegs) :
    (r.acknowledged).csLen = r.csLen := rfl
@[simp] theorem EngineRegs.acknowledged_xpal (r : EngineRegs) :
    (r.acknowledged).xpal = r.xpal := rfl
@[simp] theorem EngineRegs.acknowledged_apal (r : EngineRegs) :
    (r.acknowledged).apal = r.apal := rfl
@[simp] theorem EngineRegs.acknowledged_cim (r : EngineRegs) :
    (r.acknowledged).cim = r.cim := rfl
@[simp] theorem EngineRegs.acknowledged_aux (r : EngineRegs) :
    (r.acknowledged).aux = r.aux := rfl

/-! ## The registers of one engine in the state -/

@[simp] theorem State.regs_dec (s : State) : s.regs .dec = s.dec.toEngineRegs := rfl
@[simp] theorem State.regs_enc (s : State) : s.regs .enc = s.enc.toEngineRegs := rfl
@[simp] theorem State.setRegs_dec_dec (s : State) (r : EngineRegs) :
    (s.setRegs .dec r).dec = { s.dec with toEngineRegs := r } := rfl
@[simp] theorem State.setRegs_dec_enc (s : State) (r : EngineRegs) :
    (s.setRegs .dec r).enc = s.enc := rfl
@[simp] theorem State.setRegs_enc_enc (s : State) (r : EngineRegs) :
    (s.setRegs .enc r).enc = { s.enc with toEngineRegs := r } := rfl
@[simp] theorem State.setRegs_enc_dec (s : State) (r : EngineRegs) :
    (s.setRegs .enc r).dec = s.dec := rfl
@[simp] theorem State.regs_setRegs_same (s : State) (e : Engine) (r : EngineRegs) :
    (s.setRegs e r).regs e = r := by cases e <;> rfl
theorem State.regs_setRegs_ne (s : State) {e f : Engine} (r : EngineRegs) (h : f ≠ e) :
    (s.setRegs e r).regs f = s.regs f := by cases e <;> cases f <;> first | rfl | exact absurd rfl h
@[simp] theorem State.setRegs_self (s : State) (e : Engine) : s.setRegs e (s.regs e) = s := by
  cases e <;> rfl
@[simp] theorem State.setRegs_setRegs (s : State) (e : Engine) (r r' : EngineRegs) :
    (s.setRegs e r).setRegs e r' = s.setRegs e r' := by cases e <;> rfl
@[simp] theorem State.setRegs_par (s : State) (e : Engine) (r : EngineRegs) :
    (s.setRegs e r).par = s.par := by cases e <;> rfl
@[simp] theorem State.setRegs_agenda (s : State) (e : Engine) (r : EngineRegs) :
    (s.setRegs e r).agenda = s.agenda := by cases e <;> rfl
@[simp] theorem State.setRegs_rdata (s : State) (e : Engine) (r : EngineRegs) :
    (s.setRegs e r).rdata = s.rdata := by cases e <;> rfl
@[simp] theorem State.setRegs_free (s : State) (e : Engine) (r : EngineRegs) :
    (s.setRegs e r).free = s.free := by cases e <;> rfl

/-! ## Fault entry and acknowledgement -/

@[simp] theorem State.regs_faultEntry_same (s : State) (e : Engine) (c : Cause) (epc : Nat) :
    (s.faultEntry e c epc).regs e = (s.regs e).raised c epc := by cases e <;> rfl
theorem State.regs_faultEntry_ne (s : State) {e f : Engine} (c : Cause) (epc : Nat) (h : f ≠ e) :
    (s.faultEntry e c epc).regs f = s.regs f := by
  cases e <;> cases f <;> first | rfl | exact absurd rfl h
@[simp] theorem State.faultEntry_dec_dec (s : State) (c : Cause) (epc : Nat) :
    (s.faultEntry .dec c epc).dec = { s.dec with toEngineRegs := s.dec.toEngineRegs.raised c epc } :=
  rfl
@[simp] theorem State.faultEntry_dec_enc (s : State) (c : Cause) (epc : Nat) :
    (s.faultEntry .dec c epc).enc = s.enc := rfl
@[simp] theorem State.faultEntry_enc_dec (s : State) (c : Cause) (epc : Nat) :
    (s.faultEntry .enc c epc).dec = s.dec := rfl
@[simp] theorem State.faultEntry_enc_enc (s : State) (c : Cause) (epc : Nat) :
    (s.faultEntry .enc c epc).enc =
      { s.enc with toEngineRegs := s.enc.toEngineRegs.raised c epc, outLen := 0 } := rfl
@[simp] theorem State.regs_tableFault_same (s : State) (e : Engine) (c : Cause) :
    (s.tableFault e c).regs e = (s.regs e).raised c 0 := by cases e <;> rfl
theorem State.regs_tableFault_ne (s : State) {e f : Engine} (c : Cause) (h : f ≠ e) :
    (s.tableFault e c).regs f = s.regs f := by
  cases e <;> cases f <;> first | rfl | exact absurd rfl h
@[simp] theorem State.tableFault_dec_dec (s : State) (c : Cause) :
    (s.tableFault .dec c).dec = { s.dec with toEngineRegs := s.dec.toEngineRegs.raised c 0 } := rfl
@[simp] theorem State.tableFault_dec_enc (s : State) (c : Cause) : (s.tableFault .dec c).enc = s.enc := rfl
@[simp] theorem State.tableFault_enc_dec (s : State) (c : Cause) : (s.tableFault .enc c).dec = s.dec := rfl
@[simp] theorem State.tableFault_enc_enc (s : State) (c : Cause) :
    (s.tableFault .enc c).enc = { s.enc with toEngineRegs := s.enc.toEngineRegs.raised c 0 } := rfl
@[simp] theorem State.tableFault_par (s : State) (e : Engine) (c : Cause) :
    (s.tableFault e c).par = s.par := by cases e <;> rfl
@[simp] theorem State.tableFault_agenda (s : State) (e : Engine) (c : Cause) :
    (s.tableFault e c).agenda = s.agenda := by cases e <;> rfl
@[simp] theorem State.tableFault_rdata (s : State) (e : Engine) (c : Cause) :
    (s.tableFault e c).rdata = s.rdata := by cases e <;> rfl
@[simp] theorem State.tableFault_free (s : State) (e : Engine) (c : Cause) :
    (s.tableFault e c).free = s.free := by cases e <;> rfl
@[simp] theorem State.regs_acknowledge_same (s : State) (e : Engine) :
    (s.acknowledge e).regs e = (s.regs e).acknowledged := by cases e <;> rfl
theorem State.regs_acknowledge_ne (s : State) {e f : Engine} (h : f ≠ e) :
    (s.acknowledge e).regs f = s.regs f := by
  cases e <;> cases f <;> first | rfl | exact absurd rfl h
@[simp] theorem State.faultEntry_par (s : State) (e : Engine) (c : Cause) (epc : Nat) :
    (s.faultEntry e c epc).par = s.par := by cases e <;> rfl
@[simp] theorem State.acknowledge_par (s : State) (e : Engine) :
    (s.acknowledge e).par = s.par := by cases e <;> rfl
@[simp] theorem State.faultEntry_agenda (s : State) (e : Engine) (c : Cause) (epc : Nat) :
    (s.faultEntry e c epc).agenda = s.agenda := by cases e <;> rfl
@[simp] theorem State.acknowledge_agenda (s : State) (e : Engine) :
    (s.acknowledge e).agenda = s.agenda := by cases e <;> rfl
@[simp] theorem State.faultEntry_rdata (s : State) (e : Engine) (c : Cause) (epc : Nat) :
    (s.faultEntry e c epc).rdata = s.rdata := by cases e <;> rfl
@[simp] theorem State.acknowledge_rdata (s : State) (e : Engine) :
    (s.acknowledge e).rdata = s.rdata := by cases e <;> rfl
@[simp] theorem State.faultEntry_free (s : State) (e : Engine) (c : Cause) (epc : Nat) :
    (s.faultEntry e c epc).free = s.free := by cases e <;> rfl
@[simp] theorem State.acknowledge_free (s : State) (e : Engine) :
    (s.acknowledge e).free = s.free := by cases e <;> rfl

/-! ## What a faulted RUN leaves: inputs and the defined outputs are unchanged -/

@[simp] theorem State.spoilDec_dec_palv (s : State) : s.spoilDec.dec.palv = s.dec.palv := rfl
@[simp] theorem State.spoilDec_dec_patchEn (s : State) : s.spoilDec.dec.patchEn = s.dec.patchEn := rfl
@[simp] theorem State.spoilDec_dec_busy (s : State) : s.spoilDec.dec.busy = s.dec.busy := rfl
@[simp] theorem State.spoilDec_dec_done (s : State) : s.spoilDec.dec.done = s.dec.done := rfl
@[simp] theorem State.spoilDec_dec_err (s : State) : s.spoilDec.dec.err = s.dec.err := rfl
@[simp] theorem State.spoilDec_dec_cause (s : State) : s.spoilDec.dec.cause = s.dec.cause := rfl
@[simp] theorem State.spoilDec_dec_epc (s : State) : s.spoilDec.dec.epc = s.dec.epc := rfl
@[simp] theorem State.spoilDec_dec_arg0 (s : State) : s.spoilDec.dec.arg0 = s.dec.arg0 := rfl
@[simp] theorem State.spoilDec_dec_arg1 (s : State) : s.spoilDec.dec.arg1 = s.dec.arg1 := rfl
@[simp] theorem State.spoilDec_dec_res (s : State) : s.spoilDec.dec.res = s.dec.res := rfl
@[simp] theorem State.spoilDec_dec_xpal (s : State) : s.spoilDec.dec.xpal = s.dec.xpal := rfl
@[simp] theorem State.spoilDec_dec_aux (s : State) : s.spoilDec.dec.aux = s.dec.aux := rfl
@[simp] theorem State.spoilDec_dec_inLen (s : State) : s.spoilDec.dec.inLen = s.dec.inLen := rfl
@[simp] theorem State.spoilDec_dec_din (s : State) : s.spoilDec.dec.din = s.dec.din := rfl
@[simp] theorem State.spoilDec_enc (s : State) : s.spoilDec.enc = s.enc := rfl
@[simp] theorem State.spoilDec_par (s : State) : s.spoilDec.par = s.par := rfl
@[simp] theorem State.spoilDec_agenda (s : State) : s.spoilDec.agenda = s.agenda := rfl
@[simp] theorem State.spoilDec_rdata (s : State) : s.spoilDec.rdata = s.rdata := rfl
@[simp] theorem State.spoilEnc_enc_palv (s : State) : s.spoilEnc.enc.palv = s.enc.palv := rfl
@[simp] theorem State.spoilEnc_enc_patchEn (s : State) : s.spoilEnc.enc.patchEn = s.enc.patchEn := rfl
@[simp] theorem State.spoilEnc_enc_busy (s : State) : s.spoilEnc.enc.busy = s.enc.busy := rfl
@[simp] theorem State.spoilEnc_enc_done (s : State) : s.spoilEnc.enc.done = s.enc.done := rfl
@[simp] theorem State.spoilEnc_enc_err (s : State) : s.spoilEnc.enc.err = s.enc.err := rfl
@[simp] theorem State.spoilEnc_enc_cause (s : State) : s.spoilEnc.enc.cause = s.enc.cause := rfl
@[simp] theorem State.spoilEnc_enc_epc (s : State) : s.spoilEnc.enc.epc = s.enc.epc := rfl
@[simp] theorem State.spoilEnc_enc_arg0 (s : State) : s.spoilEnc.enc.arg0 = s.enc.arg0 := rfl
@[simp] theorem State.spoilEnc_enc_arg1 (s : State) : s.spoilEnc.enc.arg1 = s.enc.arg1 := rfl
@[simp] theorem State.spoilEnc_enc_res (s : State) : s.spoilEnc.enc.res = s.enc.res := rfl
@[simp] theorem State.spoilEnc_enc_xpal (s : State) : s.spoilEnc.enc.xpal = s.enc.xpal := rfl
@[simp] theorem State.spoilEnc_enc_cim (s : State) : s.spoilEnc.enc.cim = s.enc.cim := rfl
@[simp] theorem State.spoilEnc_enc_aux (s : State) : s.spoilEnc.enc.aux = s.enc.aux := rfl
@[simp] theorem State.spoilEnc_enc_outLen (s : State) : s.spoilEnc.enc.outLen = s.enc.outLen := rfl
@[simp] theorem State.spoilEnc_enc_gw (s : State) : s.spoilEnc.enc.gw = s.enc.gw := rfl
@[simp] theorem State.spoilEnc_enc_gh (s : State) : s.spoilEnc.enc.gh = s.enc.gh := rfl
@[simp] theorem State.spoilEnc_enc_grid (s : State) : s.spoilEnc.enc.grid = s.enc.grid := rfl
@[simp] theorem State.spoilEnc_dec (s : State) : s.spoilEnc.dec = s.dec := rfl
@[simp] theorem State.spoilEnc_par (s : State) : s.spoilEnc.par = s.par := rfl
@[simp] theorem State.spoilEnc_agenda (s : State) : s.spoilEnc.agenda = s.agenda := rfl
@[simp] theorem State.spoilEnc_rdata (s : State) : s.spoilEnc.rdata = s.rdata := rfl

/-! ## The decoder's small updates -/

@[simp] theorem Decoder.endPlane_palv (d : Decoder) :
    d.endPlane.palv = d.palv := rfl
@[simp] theorem Decoder.endPlane_patchEn (d : Decoder) :
    d.endPlane.patchEn = d.patchEn := rfl
@[simp] theorem Decoder.endPlane_busy (d : Decoder) :
    d.endPlane.busy = d.busy := rfl
@[simp] theorem Decoder.endPlane_done (d : Decoder) :
    d.endPlane.done = d.done := rfl
@[simp] theorem Decoder.endPlane_err (d : Decoder) :
    d.endPlane.err = d.err := rfl
@[simp] theorem Decoder.endPlane_cause (d : Decoder) :
    d.endPlane.cause = d.cause := rfl
@[simp] theorem Decoder.endPlane_epc (d : Decoder) :
    d.endPlane.epc = d.epc := rfl
@[simp] theorem Decoder.endPlane_arg0 (d : Decoder) :
    d.endPlane.arg0 = d.arg0 := rfl
@[simp] theorem Decoder.endPlane_arg1 (d : Decoder) :
    d.endPlane.arg1 = d.arg1 := rfl
@[simp] theorem Decoder.endPlane_res (d : Decoder) :
    d.endPlane.res = d.res := rfl
@[simp] theorem Decoder.endPlane_hasPal (d : Decoder) :
    d.endPlane.hasPal = d.hasPal := rfl
@[simp] theorem Decoder.endPlane_csLen (d : Decoder) :
    d.endPlane.csLen = d.csLen := rfl
@[simp] theorem Decoder.endPlane_xpal (d : Decoder) :
    d.endPlane.xpal = d.xpal := rfl
@[simp] theorem Decoder.endPlane_apal (d : Decoder) :
    d.endPlane.apal = d.apal := rfl
@[simp] theorem Decoder.endPlane_cim (d : Decoder) :
    d.endPlane.cim = d.cim := rfl
@[simp] theorem Decoder.endPlane_aux (d : Decoder) :
    d.endPlane.aux = d.aux := rfl
@[simp] theorem Decoder.endPlane_inLen (d : Decoder) :
    d.endPlane.inLen = d.inLen := rfl
@[simp] theorem Decoder.endPlane_aw (d : Decoder) :
    d.endPlane.aw = d.aw := rfl
@[simp] theorem Decoder.endPlane_ah (d : Decoder) :
    d.endPlane.ah = d.ah := rfl
@[simp] theorem Decoder.endPlane_sp (d : Decoder) :
    d.endPlane.sp = d.sp := rfl
@[simp] theorem Decoder.endPlane_csend (d : Decoder) :
    d.endPlane.csend = d.csend := rfl
@[simp] theorem Decoder.endPlane_plane (d : Decoder) :
    d.endPlane.plane = d.plane + 1 := rfl
@[simp] theorem Decoder.endPlane_cur (d : Decoder) :
    d.endPlane.cur = if (d.plane + 1).toNat < Config.planes then (d.plane + 1).setWidth 32 else d.cur := rfl
@[simp] theorem Decoder.endPlane_word (d : Decoder) :
    d.endPlane.word = d.word := rfl
@[simp] theorem Decoder.endPlane_cnt (d : Decoder) :
    d.endPlane.cnt = d.cnt := rfl
@[simp] theorem Decoder.endPlane_idx (d : Decoder) :
    d.endPlane.idx = d.idx := rfl
@[simp] theorem Decoder.endPlane_din (d : Decoder) :
    d.endPlane.din = d.din := rfl
@[simp] theorem Decoder.endPlane_canvas (d : Decoder) :
    d.endPlane.canvas = d.canvas := rfl
@[simp] theorem Decoder.skipPositions_palv (d : Decoder) (n : Nat) :
    (d.skipPositions n).palv = d.palv := rfl
@[simp] theorem Decoder.skipPositions_patchEn (d : Decoder) (n : Nat) :
    (d.skipPositions n).patchEn = d.patchEn := rfl
@[simp] theorem Decoder.skipPositions_busy (d : Decoder) (n : Nat) :
    (d.skipPositions n).busy = d.busy := rfl
@[simp] theorem Decoder.skipPositions_done (d : Decoder) (n : Nat) :
    (d.skipPositions n).done = d.done := rfl
@[simp] theorem Decoder.skipPositions_err (d : Decoder) (n : Nat) :
    (d.skipPositions n).err = d.err := rfl
@[simp] theorem Decoder.skipPositions_cause (d : Decoder) (n : Nat) :
    (d.skipPositions n).cause = d.cause := rfl
@[simp] theorem Decoder.skipPositions_epc (d : Decoder) (n : Nat) :
    (d.skipPositions n).epc = d.epc := rfl
@[simp] theorem Decoder.skipPositions_arg0 (d : Decoder) (n : Nat) :
    (d.skipPositions n).arg0 = d.arg0 := rfl
@[simp] theorem Decoder.skipPositions_arg1 (d : Decoder) (n : Nat) :
    (d.skipPositions n).arg1 = d.arg1 := rfl
@[simp] theorem Decoder.skipPositions_res (d : Decoder) (n : Nat) :
    (d.skipPositions n).res = d.res := rfl
@[simp] theorem Decoder.skipPositions_hasPal (d : Decoder) (n : Nat) :
    (d.skipPositions n).hasPal = d.hasPal := rfl
@[simp] theorem Decoder.skipPositions_csLen (d : Decoder) (n : Nat) :
    (d.skipPositions n).csLen = d.csLen := rfl
@[simp] theorem Decoder.skipPositions_xpal (d : Decoder) (n : Nat) :
    (d.skipPositions n).xpal = d.xpal := rfl
@[simp] theorem Decoder.skipPositions_apal (d : Decoder) (n : Nat) :
    (d.skipPositions n).apal = d.apal := rfl
@[simp] theorem Decoder.skipPositions_cim (d : Decoder) (n : Nat) :
    (d.skipPositions n).cim = d.cim := rfl
@[simp] theorem Decoder.skipPositions_aux (d : Decoder) (n : Nat) :
    (d.skipPositions n).aux = d.aux := rfl
@[simp] theorem Decoder.skipPositions_inLen (d : Decoder) (n : Nat) :
    (d.skipPositions n).inLen = d.inLen := rfl
@[simp] theorem Decoder.skipPositions_aw (d : Decoder) (n : Nat) :
    (d.skipPositions n).aw = d.aw := rfl
@[simp] theorem Decoder.skipPositions_ah (d : Decoder) (n : Nat) :
    (d.skipPositions n).ah = d.ah := rfl
@[simp] theorem Decoder.skipPositions_sp (d : Decoder) (n : Nat) :
    (d.skipPositions n).sp = d.sp := rfl
@[simp] theorem Decoder.skipPositions_csend (d : Decoder) (n : Nat) :
    (d.skipPositions n).csend = d.csend := rfl
@[simp] theorem Decoder.skipPositions_plane (d : Decoder) (n : Nat) :
    (d.skipPositions n).plane = d.plane := rfl
@[simp] theorem Decoder.skipPositions_cur (d : Decoder) (n : Nat) :
    (d.skipPositions n).cur = d.cur + 4 * BitVec.ofNat 32 n := rfl
@[simp] theorem Decoder.skipPositions_word (d : Decoder) (n : Nat) :
    (d.skipPositions n).word = d.word := rfl
@[simp] theorem Decoder.skipPositions_cnt (d : Decoder) (n : Nat) :
    (d.skipPositions n).cnt = d.cnt := rfl
@[simp] theorem Decoder.skipPositions_idx (d : Decoder) (n : Nat) :
    (d.skipPositions n).idx = d.idx := rfl
@[simp] theorem Decoder.skipPositions_din (d : Decoder) (n : Nat) :
    (d.skipPositions n).din = d.din := rfl
@[simp] theorem Decoder.skipPositions_canvas (d : Decoder) (n : Nat) :
    (d.skipPositions n).canvas = d.canvas := rfl
@[simp] theorem Decoder.finish_palv (d : Decoder) :
    d.finish.palv = d.palv := rfl
@[simp] theorem Decoder.finish_patchEn (d : Decoder) :
    d.finish.patchEn = d.patchEn := rfl
@[simp] theorem Decoder.finish_busy (d : Decoder) :
    d.finish.busy = false := rfl
@[simp] theorem Decoder.finish_done (d : Decoder) :
    d.finish.done = true := rfl
@[simp] theorem Decoder.finish_err (d : Decoder) :
    d.finish.err = d.err := rfl
@[simp] theorem Decoder.finish_cause (d : Decoder) :
    d.finish.cause = d.cause := rfl
@[simp] theorem Decoder.finish_epc (d : Decoder) :
    d.finish.epc = d.epc := rfl
@[simp] theorem Decoder.finish_arg0 (d : Decoder) :
    d.finish.arg0 = d.arg0 := rfl
@[simp] theorem Decoder.finish_arg1 (d : Decoder) :
    d.finish.arg1 = d.arg1 := rfl
@[simp] theorem Decoder.finish_res (d : Decoder) :
    d.finish.res = d.res := rfl
@[simp] theorem Decoder.finish_hasPal (d : Decoder) :
    d.finish.hasPal = d.hasPal := rfl
@[simp] theorem Decoder.finish_csLen (d : Decoder) :
    d.finish.csLen = d.csLen := rfl
@[simp] theorem Decoder.finish_xpal (d : Decoder) :
    d.finish.xpal = d.xpal := rfl
@[simp] theorem Decoder.finish_apal (d : Decoder) :
    d.finish.apal = d.apal := rfl
@[simp] theorem Decoder.finish_cim (d : Decoder) :
    d.finish.cim = d.cim := rfl
@[simp] theorem Decoder.finish_aux (d : Decoder) :
    d.finish.aux = d.aux := rfl
@[simp] theorem Decoder.finish_inLen (d : Decoder) :
    d.finish.inLen = d.inLen := rfl
@[simp] theorem Decoder.finish_aw (d : Decoder) :
    d.finish.aw = d.aw := rfl
@[simp] theorem Decoder.finish_ah (d : Decoder) :
    d.finish.ah = d.ah := rfl
@[simp] theorem Decoder.finish_sp (d : Decoder) :
    d.finish.sp = d.sp := rfl
@[simp] theorem Decoder.finish_csend (d : Decoder) :
    d.finish.csend = d.csend := rfl
@[simp] theorem Decoder.finish_plane (d : Decoder) :
    d.finish.plane = d.plane := rfl
@[simp] theorem Decoder.finish_cur (d : Decoder) :
    d.finish.cur = d.cur := rfl
@[simp] theorem Decoder.finish_word (d : Decoder) :
    d.finish.word = d.word := rfl
@[simp] theorem Decoder.finish_cnt (d : Decoder) :
    d.finish.cnt = d.cnt := rfl
@[simp] theorem Decoder.finish_idx (d : Decoder) :
    d.finish.idx = d.idx := rfl
@[simp] theorem Decoder.finish_din (d : Decoder) :
    d.finish.din = d.din := rfl
@[simp] theorem Decoder.finish_canvas (d : Decoder) :
    d.finish.canvas = d.canvas := rfl
@[simp] theorem Decoder.openPlanes_palv (d : Decoder) :
    d.openPlanes.palv = d.palv := rfl
@[simp] theorem Decoder.openPlanes_patchEn (d : Decoder) :
    d.openPlanes.patchEn = d.patchEn := rfl
@[simp] theorem Decoder.openPlanes_busy (d : Decoder) :
    d.openPlanes.busy = d.busy := rfl
@[simp] theorem Decoder.openPlanes_done (d : Decoder) :
    d.openPlanes.done = d.done := rfl
@[simp] theorem Decoder.openPlanes_err (d : Decoder) :
    d.openPlanes.err = d.err := rfl
@[simp] theorem Decoder.openPlanes_cause (d : Decoder) :
    d.openPlanes.cause = d.cause := rfl
@[simp] theorem Decoder.openPlanes_epc (d : Decoder) :
    d.openPlanes.epc = d.epc := rfl
@[simp] theorem Decoder.openPlanes_arg0 (d : Decoder) :
    d.openPlanes.arg0 = d.arg0 := rfl
@[simp] theorem Decoder.openPlanes_arg1 (d : Decoder) :
    d.openPlanes.arg1 = d.arg1 := rfl
@[simp] theorem Decoder.openPlanes_res (d : Decoder) :
    d.openPlanes.res = d.res := rfl
@[simp] theorem Decoder.openPlanes_hasPal (d : Decoder) :
    d.openPlanes.hasPal = d.hasPal := rfl
@[simp] theorem Decoder.openPlanes_csLen (d : Decoder) :
    d.openPlanes.csLen = d.csLen := rfl
@[simp] theorem Decoder.openPlanes_xpal (d : Decoder) :
    d.openPlanes.xpal = d.xpal := rfl
@[simp] theorem Decoder.openPlanes_apal (d : Decoder) :
    d.openPlanes.apal = d.apal := rfl
@[simp] theorem Decoder.openPlanes_cim (d : Decoder) :
    d.openPlanes.cim = clearMap d.cim := rfl
@[simp] theorem Decoder.openPlanes_aux (d : Decoder) :
    d.openPlanes.aux = d.aux := rfl
@[simp] theorem Decoder.openPlanes_inLen (d : Decoder) :
    d.openPlanes.inLen = d.inLen := rfl
@[simp] theorem Decoder.openPlanes_aw (d : Decoder) :
    d.openPlanes.aw = d.aw := rfl
@[simp] theorem Decoder.openPlanes_ah (d : Decoder) :
    d.openPlanes.ah = d.ah := rfl
@[simp] theorem Decoder.openPlanes_sp (d : Decoder) :
    d.openPlanes.sp = d.sp := rfl
@[simp] theorem Decoder.openPlanes_csend (d : Decoder) :
    d.openPlanes.csend = d.csend := rfl
@[simp] theorem Decoder.openPlanes_plane (d : Decoder) :
    d.openPlanes.plane = 0 := rfl
@[simp] theorem Decoder.openPlanes_cur (d : Decoder) :
    d.openPlanes.cur = 0 := rfl
@[simp] theorem Decoder.openPlanes_word (d : Decoder) :
    d.openPlanes.word = d.word := rfl
@[simp] theorem Decoder.openPlanes_cnt (d : Decoder) :
    d.openPlanes.cnt = d.cnt := rfl
@[simp] theorem Decoder.openPlanes_idx (d : Decoder) :
    d.openPlanes.idx = d.idx := rfl
@[simp] theorem Decoder.openPlanes_din (d : Decoder) :
    d.openPlanes.din = d.din := rfl
@[simp] theorem Decoder.openPlanes_canvas (d : Decoder) :
    d.openPlanes.canvas = [] := rfl

end Sys2Proof.Machine
end

