-- ==== Sys2Proof/Laws/Ops.lean ====
section
/-! SUPPORT. One lemma for each shared operation that says once everything it can do, and that each
operation on a space keeps its canonical form. -/

namespace Sys2Proof.Machine

/-! ## Acceptance and the envelope of the table commands -/

theorem State.whenIdle_busy {s : State} {e : Engine} (h : (s.regs e).busy = true)
    (k : Host.Outcome State Fault Refusal) : s.whenIdle e k = .next s := if_pos h

theorem State.whenIdle_idle {s : State} {e : Engine} (h : (s.regs e).busy = false)
    (k : Host.Outcome State Fault Refusal) : s.whenIdle e k = k := by simp [State.whenIdle, h]

theorem State.tableCommand_busy {s : State} {e : Engine} (h : (s.regs e).busy = true)
    (body : EngineRegs → Except Cause EngineRegs) : s.tableCommand e body = .next s :=
  State.whenIdle_busy h _

theorem State.tableCommand_ok {s : State} {e : Engine} {body : EngineRegs → Except Cause EngineRegs}
    {r : EngineRegs} (h : (s.regs e).busy = false) (hb : body (s.regs e).startTable = .ok r) :
    s.tableCommand e body = .next (s.setRegs e r.finishTable) := by
  rw [State.tableCommand, State.whenIdle_idle h]; simp [hb]

theorem State.tableCommand_error {s : State} {e : Engine} {body : EngineRegs → Except Cause EngineRegs}
    {c : Cause} (h : (s.regs e).busy = false) (hb : body (s.regs e).startTable = .error c) :
    s.tableCommand e body = .next ((s.setRegs e (s.regs e).startTable).tableFault e c) := by
  rw [State.tableCommand, State.whenIdle_idle h]; simp [hb]

/-- Everything a table command can do: it is turned away, it runs its body, or it faults. -/
theorem State.tableCommand_cases (s : State) (e : Engine)
    (body : EngineRegs → Except Cause EngineRegs) :
    ((s.regs e).busy = true ∧ s.tableCommand e body = .next s) ∨
    ((s.regs e).busy = false ∧ ∃ r, body (s.regs e).startTable = .ok r ∧
      s.tableCommand e body = .next (s.setRegs e r.finishTable)) ∨
    ((s.regs e).busy = false ∧ ∃ c, body (s.regs e).startTable = .error c ∧
      s.tableCommand e body = .next ((s.setRegs e (s.regs e).startTable).tableFault e c)) := by
  cases h : (s.regs e).busy
  · cases hb : body (s.regs e).startTable with
    | ok r => exact .inr (.inl ⟨rfl, r, rfl, State.tableCommand_ok h hb⟩)
    | error c => exact .inr (.inr ⟨rfl, c, rfl, State.tableCommand_error h hb⟩)
  · exact .inl ⟨rfl, State.tableCommand_busy h body⟩

/-! ## The end of a part of a RUN -/

@[simp] theorem State.afterDec_ok (s : State) (d : Decoder) :
    s.afterDec (.ok d) = .next { s with dec := d } := rfl
@[simp] theorem State.afterDec_raised (s : State) (c : Cause) (epc : Nat) :
    s.afterDec (.error (.raised c epc)) = .next (s.faultEntry .dec c epc).spoilDec := rfl
@[simp] theorem State.afterDec_stopped (s : State) (f : Fault) :
    s.afterDec (.error (.stopped f)) = .fault f := rfl
@[simp] theorem State.afterEnc_ok (s : State) (e : Encoder) :
    s.afterEnc (.ok e) = .next { s with enc := e } := rfl
@[simp] theorem State.afterEnc_raised (s : State) (c : Cause) (epc : Nat) :
    s.afterEnc (.error (.raised c epc)) = .next (s.faultEntry .enc c epc).spoilEnc := rfl
@[simp] theorem State.afterEnc_stopped (s : State) (f : Fault) :
    s.afterEnc (.error (.stopped f)) = .fault f := rfl

/-- If a part of DEC's RUN gives a next state, it finished or it raised. -/
theorem State.afterDec_next {s t : State} {r : Except Stop Decoder} (h : s.afterDec r = .next t) :
    (∃ d, r = .ok d ∧ t = { s with dec := d }) ∨
    ∃ c epc, r = .error (.raised c epc) ∧ t = (s.faultEntry .dec c epc).spoilDec := by
  match r, h with
  | .ok d, h => exact .inl ⟨d, rfl, by simpa using h.symm⟩
  | .error (.raised c epc), h => exact .inr ⟨c, epc, rfl, by simpa using h.symm⟩
  | .error (.stopped _), h => simp at h

/-- If a part of ENC's RUN gives a next state, it finished or it raised. -/
theorem State.afterEnc_next {s t : State} {r : Except Stop Encoder} (h : s.afterEnc r = .next t) :
    (∃ d, r = .ok d ∧ t = { s with enc := d }) ∨
    ∃ c epc, r = .error (.raised c epc) ∧ t = (s.faultEntry .enc c epc).spoilEnc := by
  match r, h with
  | .ok d, h => exact .inl ⟨d, rfl, by simpa using h.symm⟩
  | .error (.raised c epc), h => exact .inr ⟨c, epc, rfl, by simpa using h.symm⟩
  | .error (.stopped _), h => simp at h

/-! ## The stream -/

/-- Everything the read of an index byte can do. -/
theorem Decoder.readIndex_cases (d : Decoder) (pc0 : Nat) :
    (d.csend.toNat < d.sp.toNat + 1 ∧ d.readIndex pc0 = .error (.raised .streamUnderrun pc0)) ∨
    (d.sp.toNat < d.csend.toNat ∧ Config.fileCap ≤ d.sp.toNat ∧
      d.readIndex pc0 = .error (.stopped .dinOutsideSpace)) ∨
    (d.sp.toNat < d.csend.toNat ∧ d.sp.toNat < Config.fileCap ∧
      d.readIndex pc0 = .ok { d with idx := memRead8 d.din d.sp.toNat, sp := d.sp + 1 }) := by
  by_cases h : d.sp.toNat + 1 > d.csend.toNat
  · exact .inl ⟨h, by simp [Decoder.readIndex, h]⟩
  · by_cases h2 : d.sp.toNat < Config.fileCap
    · exact .inr (.inr ⟨by omega, h2, by simp [Decoder.readIndex, h, Decoder.dinByte, h2]⟩)
    · exact .inr (.inl ⟨by omega, by omega, by simp [Decoder.readIndex, h, Decoder.dinByte, h2]⟩)

/-- Everything the fetch of a command word can do. -/
theorem Decoder.fetchWord_cases (d : Decoder) :
    (d.csend.toNat < d.sp.toNat + 2 ∧ d.fetchWord = .error (.raised .streamUnderrun d.sp.toNat)) ∨
    (d.sp.toNat + 2 ≤ d.csend.toNat ∧ Config.fileCap ≤ d.sp.toNat + 1 ∧
      d.fetchWord = .error (.stopped .dinOutsideSpace)) ∨
    (d.sp.toNat + 2 ≤ d.csend.toNat ∧ d.sp.toNat + 1 < Config.fileCap ∧
      d.fetchWord = .ok { d with
        word := memRead16 d.din d.sp.toNat
        sp := d.sp + 2
        cnt := wordCount (memRead16 d.din d.sp.toNat) }) := by
  by_cases h : d.sp.toNat + 2 > d.csend.toNat
  · exact .inl ⟨h, by simp [Decoder.fetchWord, h]⟩
  · by_cases h2 : d.sp.toNat + 1 < Config.fileCap
    · exact .inr (.inr ⟨by omega, h2, by simp [Decoder.fetchWord, h, Decoder.dinWord, h2]⟩)
    · exact .inr (.inl ⟨by omega, by omega, by simp [Decoder.fetchWord, h, Decoder.dinWord, h2]⟩)

/-- Everything the write of one position can do (40_decoder_commands.md R135). -/
theorem Decoder.stamp_cases (d : Decoder) (sent : Colour) (pc0 : Nat) (i : Byte) :
    (Config.canvasSize ≤ d.cur.toNat ∧ d.stamp sent pc0 i = .error (.raised .canvasOverrun pc0)) ∨
    (d.cur.toNat < Config.canvasSize ∧ d.stamp sent pc0 i = .ok { d with
      canvas := Cells.write sent d.canvas d.cur.toNat (Table.get d.apal i)
      cim := Table.set d.cim i { valid := true, colour := Table.get d.apal i }
      cur := d.cur + 4 }) := by
  by_cases h : d.cur.toNat ≥ Config.canvasSize
  · exact .inl ⟨h, by simp [Decoder.stamp, Decoder.writePixel, h]⟩
  · exact .inr ⟨by omega, by simp [Decoder.stamp, Decoder.writePixel, h]⟩

/-- The write of a position keeps the canonical form of the canvas. -/
theorem Decoder.stamp_keeps_wf {d d' : Decoder} {sent : Colour} {pc0 : Nat} {i : Byte}
    (h : Cells.wf sent Config.canvasSize d.canvas = true) (hs : d.stamp sent pc0 i = .ok d') :
    Cells.wf sent Config.canvasSize d'.canvas = true := by
  rcases d.stamp_cases sent pc0 i with ⟨-, he⟩ | ⟨hc, he⟩
  · rw [he] at hs; cases hs
  · rw [he] at hs; cases hs
    exact Cells.wf_write h hc _

/-! ## The transfers keep AUX and EOUT in canonical form -/

theorem wf_foldl_range {m : ByteSpace} {size : Nat} (f : ByteSpace → Nat → ByteSpace)
    (hf : ∀ m i, i < 256 → Cells.wf unlistedByte size m = true →
      Cells.wf unlistedByte size (f m i) = true)
    (h : Cells.wf unlistedByte size m = true) :
    Cells.wf unlistedByte size ((List.range 256).foldl f m) = true := by
  suffices ∀ (l : List Nat) (m : ByteSpace), (∀ i ∈ l, i < 256) → Cells.wf unlistedByte size m = true →
      Cells.wf unlistedByte size (l.foldl f m) = true from
    this _ m (fun i hi => List.mem_range.1 hi) h
  intro l
  induction l with
  | nil => intro m _ hm; exact hm
  | cons i l ih =>
    intro m hl hm
    exact ih _ (fun j hj => hl j (List.mem_cons_of_mem _ hj))
      (hf m i (hl i (List.mem_cons_self ..)) hm)

theorem wf_storePalette (p : Vector Colour 256) {aux : ByteSpace}
    (h : Cells.wf unlistedByte Config.auxCap aux = true) :
    Cells.wf unlistedByte Config.auxCap (storePalette p aux) = true :=
  wf_foldl_range _ (fun m i hi hm =>
    wf_writeTriplet hm (by simp only [Config.auxCap]; omega) _) h

theorem wf_embedBytes (p : Vector Colour 256) {eout : ByteSpace}
    (h : Cells.wf unlistedByte Config.fileCap eout = true) :
    Cells.wf unlistedByte Config.fileCap (embedBytes p eout) = true :=
  wf_foldl_range _ (fun m i hi hm => by
    refine wf_memWrite8 (wf_memWrite8 (wf_memWrite8 hm ?_ _) ?_ _) ?_ _ <;>
      simp only [Config.fileCap, Config.headerBytes] <;> omega) h

theorem wf_writeRecord {m : ByteSpace} {k : Nat} (hk : k < 256) (i : Byte) (c : Colour)
    (h : Cells.wf unlistedByte Config.auxCap m = true) :
    Cells.wf unlistedByte Config.auxCap (writeRecord m k i c) = true := by
  refine wf_writeTriplet (wf_memWrite8 h ?_ i) ?_ c <;> simp only [Config.auxCap] <;> omega

/-- The records of a map fit AUX and keep its canonical form. -/
theorem wf_storeRecords (map : Vector CimEntry 256) :
    ∀ (l : List Byte) (k : Nat) (m : ByteSpace), k + l.length ≤ 256 →
      Cells.wf unlistedByte Config.auxCap m = true →
        Cells.wf unlistedByte Config.auxCap (storeRecords map l k m).2 = true
  | [], _, _, _, h => h
  | i :: l, k, m, hk, h => by
    rw [List.length_cons] at hk
    rw [storeRecords]
    split
    · exact wf_storeRecords map l (k + 1) _ (by omega) (wf_writeRecord (by omega) i _ h)
    · exact wf_storeRecords map l k m (by omega) h

/-! ## The encoder's emits -/

/-- `Transparent(pos)` is `Pix(pos) = SENTINEL` (43_encoder_runs.md R213). -/
theorem Encoder.transparent_iff (e : Encoder) (sent : Colour) (pos : Nat) :
    e.transparent sent pos = true ↔ e.pix sent pos = sent := by
  unfold Encoder.transparent Encoder.pix
  cases e.inGrid pos <;> simp

/-- Everything `Emit8` can do (43_encoder_runs.md R215). -/
theorem Encoder.emit8_cases (e : Encoder) (v : Byte) :
    (e.fits 1 = false ∧ e.emit8 v = .error (.raised .lengthOverflow e.pos.toNat)) ∨
    (e.fits 1 = true ∧ Config.fileCap ≤ e.wp.toNat ∧
      e.emit8 v = .error (.stopped .eoutOutsideSpace)) ∨
    (e.fits 1 = true ∧ e.wp.toNat < Config.fileCap ∧
      e.emit8 v = .ok { e with eout := memWrite8 e.eout e.wp.toNat v, wp := e.wp + 1 }) := by
  cases h : e.fits 1
  · exact .inl ⟨rfl, by simp [Encoder.emit8, h]⟩
  · by_cases h2 : e.wp.toNat < Config.fileCap
    · exact .inr (.inr ⟨rfl, h2, by simp [Encoder.emit8, h, Encoder.outByte, h2]⟩)
    · exact .inr (.inl ⟨rfl, by omega, by simp [Encoder.emit8, h, Encoder.outByte, h2]⟩)

/-- Everything `Emit16` can do (43_encoder_runs.md R215). -/
theorem Encoder.emit16_cases (e : Encoder) (v : Word16) :
    (e.fits 2 = false ∧ e.emit16 v = .error (.raised .lengthOverflow e.pos.toNat)) ∨
    (e.fits 2 = true ∧ Config.fileCap ≤ e.wp.toNat + 1 ∧
      e.emit16 v = .error (.stopped .eoutOutsideSpace)) ∨
    (e.fits 2 = true ∧ e.wp.toNat + 1 < Config.fileCap ∧
      e.emit16 v = .ok { e with eout := memWrite16 e.eout e.wp.toNat v, wp := e.wp + 2 }) := by
  cases h : e.fits 2
  · exact .inl ⟨rfl, by simp [Encoder.emit16, h]⟩
  · by_cases h2 : e.wp.toNat + 1 < Config.fileCap
    · exact .inr (.inr ⟨rfl, h2, by simp [Encoder.emit16, h, Encoder.outWord, h2]⟩)
    · exact .inr (.inl ⟨rfl, by omega, by simp [Encoder.emit16, h, Encoder.outWord, h2]⟩)

end Sys2Proof.Machine
end

