-- ==== Sys2Proof/Laws/PerInstr.lean ====
section
/-! SUPPORT. Per instruction: the encoding has the length of the place it stands in, one 16-bit word in the
stream (30_encoding.md R104), one code byte in a `CMD` register (R112). -/

namespace Sys2Proof.Laws.EncodedLength

/-- The encoding of `i` is two bytes in the stream, or one code of a `CMD` register. -/
def Statement (i : Instr) : Prop :=
  ((encode i).1 = .stream ∧ (encode i).2.length = 2) ∨
    (∃ e, (encode i).1 = .cmd e ∧ (encode i).2.length = 1)

theorem eop (n : Nat) : Statement (.eop n) := .inl ⟨rfl, rfl⟩
theorem skip (n : Nat) : Statement (.skip n) := .inl ⟨rfl, rfl⟩
theorem repeatRun (n : Nat) : Statement (.repeatRun n) := .inl ⟨rfl, rfl⟩
theorem copyRun (n : Nat) : Statement (.copyRun n) := .inl ⟨rfl, rfl⟩
theorem nop (e : Engine) : Statement (.nop e) := .inr ⟨e, rfl, rfl⟩
theorem runDec : Statement .runDec := .inr ⟨.dec, rfl, rfl⟩
theorem runEnc : Statement .runEnc := .inr ⟨.enc, rfl, rfl⟩
theorem clear (e : Engine) : Statement (.clear e) := .inr ⟨e, rfl, rfl⟩
theorem palGet (e : Engine) : Statement (.palGet e) := .inr ⟨e, rfl, rfl⟩
theorem palSet (e : Engine) : Statement (.palSet e) := .inr ⟨e, rfl, rfl⟩
theorem palLoadFlat (e : Engine) : Statement (.palLoadFlat e) := .inr ⟨e, rfl, rfl⟩
theorem palLoadList (e : Engine) : Statement (.palLoadList e) := .inr ⟨e, rfl, rfl⟩
theorem palStoreFlat (e : Engine) : Statement (.palStoreFlat e) := .inr ⟨e, rfl, rfl⟩
theorem palPatch (e : Engine) : Statement (.palPatch e) := .inr ⟨e, rfl, rfl⟩
theorem palClear (e : Engine) : Statement (.palClear e) := .inr ⟨e, rfl, rfl⟩
theorem cimStore (e : Engine) : Statement (.cimStore e) := .inr ⟨e, rfl, rfl⟩
theorem cimLoad (e : Engine) : Statement (.cimLoad e) := .inr ⟨e, rfl, rfl⟩
theorem cimClear (e : Engine) : Statement (.cimClear e) := .inr ⟨e, rfl, rfl⟩

end Sys2Proof.Laws.EncodedLength
end

