-- ==== Sys2Proof/Tests/Slice0.lean ====
section
/-! SUPPORT. Tests of the model, expected values from the spec's tables and vectors, and for every
statement with hypotheses a concrete state and operands that meet all of them. -/

namespace Sys2Proof.Tests

set_option Elab.async false

open Sys2Proof Sys2Proof.Machine

/-! ## Small states -/

/-- The stand-in parameters of 95_test_vectors.md section 1. -/
def testPar : Config.Params where
  sentinel := 0xFF00FF
  patchTable := Vector.ofFn fun k =>
    { r := BitVec.ofNat 6 k.val, g := BitVec.ofNat 6 (63 - k.val), b := 1 }

/-- `TPAL` of 95_test_vectors.md section 1. -/
def testPalette : Vector Colour 256 := Table.ofFn fun i =>
  rgb (BitVec.ofNat 8 (4 * (i.toNat % 64))) (BitVec.ofNat 8 (4 * (i.toNat / 4 % 64)))
    (BitVec.ofNat 8 (4 * ((255 - i.toNat) % 64)))

/-- `M_AB` of 95_test_vectors.md section 1. -/
def testMap : Vector CimEntry 256 := Table.ofFn fun i =>
  { valid := i == 1 || i == 2
    colour := if i = 1 then 0x102030 else if i = 2 then 0x405060 else 0 }

/-- Bytes from address `a` on, in canonical form. -/
def cellsFrom : Nat → List Nat → ByteSpace
  | _, [] => []
  | a, b :: rest =>
    if b = 0 then cellsFrom (a + 1) rest else (a, BitVec.ofNat 8 b) :: cellsFrom (a + 1) rest

/-- The machine after reset, with the stand-in parameters. -/
def idle : State := { State.reset with par := testPar }

/-- An idle machine whose host is about to write a code to `CMD` of an engine. -/
def issuing (e : Engine) (code : Word32) (s : State) : State :=
  { s with agenda := [.host (.writeReg e 0 code)] }

/-- An idle machine with a file in DIN and the test palette supplied or not. -/
def file (bytes : List Nat) (palv : Bool) : State :=
  { idle with dec := { idle.dec with
    din := cellsFrom 0 bytes, inLen := BitVec.ofNat 17 bytes.length, palv := palv
    xpal := testPalette } }

/-- DEC in its plane loop: `bytes` from offset 8 to the end of the region, the test palette active. -/
def decoding (plane : BitVec 3) (cur : BitVec 32) (bytes : List Nat) : State :=
  { idle with dec := { idle.dec with
    busy := true, apal := testPalette, aw := 8, ah := 2
    din := cellsFrom 8 bytes, inLen := BitVec.ofNat 17 (8 + bytes.length)
    csLen := BitVec.ofNat 16 bytes.length, csend := BitVec.ofNat 17 (8 + bytes.length)
    sp := 8, plane := plane, cur := cur } }

/-- The same DEC after the fetch of the word at offset 8. -/
def fetched (plane : BitVec 3) (cur : BitVec 32) (bytes : List Nat) : State :=
  { decoding plane cur bytes with dec := { (decoding plane cur bytes).dec with sp := 10 } }

/-- ENC in its walk or descriptor, without palette, with the test map. -/
def encoding (pixels : PixelSpace) (gw gh : BitVec 16) (plane : BitVec 3) (pos wp : BitVec 17) : State :=
  { idle with enc := { idle.enc with
    busy := true, cim := testMap, grid := pixels, gw := gw, gh := gh, base := 8, wp := wp
    plane := plane, pos := pos, csLen := BitVec.ofNat 16 (wp.toNat - 8) } }

/-- The registers of an engine with operands and AUX bytes set. -/
def operands (e : Engine) (arg0 arg1 : Word32) (aux : List Nat) (s : State) : State :=
  s.setRegs e { s.regs e with arg0 := arg0, arg1 := arg1, aux := cellsFrom 0 aux }

/-- What a state shows after an outcome, if there is a next state. -/
def shown {α : Type} (o : Host.Outcome State Fault Refusal) (f : State → α) : Option α :=
  match o with
  | .next t => some (f t)
  | .fault _ => none
  | .refused _ => none

/-- `STATUS`, `CAUSE`, `EPC` of an engine. -/
def report (e : Engine) (t : State) : Nat × Nat × Nat :=
  ((t.regs e).status.toNat, (t.regs e).cause.toNat, (t.regs e).epc.toNat)

/-! ## Well-formedness: an ill-formed term for each check -/

theorem test_eop_count_checked : (Instr.eop 16384).wellFormed = false := by decide
theorem test_skip_count_checked : (Instr.skip 16384).wellFormed = false := by decide
theorem test_repeat_count_checked : (Instr.repeatRun 16384).wellFormed = false := by decide
theorem test_copy_count_checked : (Instr.copyRun 16384).wellFormed = false := by decide

/-! ## Decoding: words written out from 30_encoding.md R104, R106, R112 and 95_test_vectors.md section 3 -/

theorem test_decode_eop : decodeTableWord 16 0b0001001000110100 = some (.eop 4660) := by decide
theorem test_decode_skip : decodeTableWord 16 0b0100000001001110 = some (.skip 78) := by decide
theorem test_decode_repeat :
    decodeTableWord 16 0b1011111111111111 = some (.repeatRun 16383) := by decide
theorem test_decode_copy : decodeTableWord 16 0b1100000000000010 = some (.copyRun 2) := by decide
theorem test_decode_word_low_byte_first :
    decode .stream [0x34#8, 0x12#8, 0x77#8] = .ok (.eop 0x1234, [0x77#8]) := by decide
theorem test_decode_repeat_ignores_payload :
    decodeTableWord 24 0x058002 = some (.repeatRun 2) := by decide
theorem test_decode_nop : decode (.cmd .enc) [0b00000000#8] = .ok (.nop .enc, []) := by decide
theorem test_decode_run_dec : decode (.cmd .dec) [0b00000001#8] = .ok (.runDec, []) := by decide
theorem test_decode_run_enc : decode (.cmd .enc) [0b00000001#8] = .ok (.runEnc, []) := by decide
theorem test_decode_clear : decode (.cmd .dec) [0b00000010#8] = .ok (.clear .dec, []) := by decide
theorem test_decode_pal_get : decode (.cmd .dec) [0b00010000#8] = .ok (.palGet .dec, []) := by decide
theorem test_decode_pal_set : decode (.cmd .enc) [0b00010001#8] = .ok (.palSet .enc, []) := by decide
theorem test_decode_pal_load_flat :
    decode (.cmd .dec) [0b00010010#8] = .ok (.palLoadFlat .dec, []) := by decide
theorem test_decode_pal_load_list :
    decode (.cmd .dec) [0b00010011#8] = .ok (.palLoadList .dec, []) := by decide
theorem test_decode_pal_store_flat :
    decode (.cmd .enc) [0b00010100#8] = .ok (.palStoreFlat .enc, []) := by decide
theorem test_decode_pal_patch :
    decode (.cmd .dec) [0b00010101#8] = .ok (.palPatch .dec, []) := by decide
theorem test_decode_pal_clear :
    decode (.cmd .enc) [0b00010110#8] = .ok (.palClear .enc, []) := by decide
theorem test_decode_cim_store :
    decode (.cmd .dec) [0b00100000#8] = .ok (.cimStore .dec, []) := by decide
theorem test_decode_cim_load :
    decode (.cmd .enc) [0b00100001#8] = .ok (.cimLoad .enc, []) := by decide
theorem test_decode_cim_clear :
    decode (.cmd .dec) [0b00100010#8] = .ok (.cimClear .dec, []) := by decide
theorem test_decode_reserved_codes :
    decode (.cmd .dec) [0x03#8] = .error (.reservedCode .dec 0x03#8) ∧
      decode (.cmd .enc) [0x17#8] = .error (.reservedCode .enc 0x17#8) ∧
      decode (.cmd .dec) [0x7F#8] = .error (.reservedCode .dec 0x7F#8) := by decide
theorem test_decode_truncated :
    decode .stream [0x00#8] = .error .truncated ∧ decode (.cmd .dec) [] = .error .truncated := by
  decide

/-! ## Stream commands, one step each (95_test_vectors.md section 3) -/

/-- K1. -/
theorem test_eop_opens_plane :
    shown (step (decoding 0 328 [0x00, 0x00])) (fun t => (t.dec.sp, t.dec.plane, t.dec.cur))
      = some (10, 1, 1) := by decide +kernel
/-- K3. -/
theorem test_eop_ends_last_plane :
    shown (step (decoding 3 327 [0x34, 0x12])) (fun t => (t.dec.plane, t.dec.cur, t.dec.busy))
      = some (4, 327, true) := by decide +kernel
/-- K7. -/
theorem test_skip_largest :
    shown (step (decoding 0 0 [0xFF, 0x7F])) (fun t => (t.dec.sp, t.dec.cur, t.dec.canvas))
      = some (10, 65532, []) := by decide +kernel
/-- K9. -/
theorem test_repeat_two :
    shown (step (decoding 0 320 [0x02, 0x80, 0x05]))
        (fun t => (t.dec.sp, t.dec.cur, t.dec.canvas, Table.get t.dec.cim 5))
      = some (11, 328, [(320, 0x1404E8), (324, 0x1404E8)], { valid := true, colour := 0x1404E8 }) := by
  decide +kernel
/-- K10. -/
theorem test_repeat_zero_takes_index :
    shown (step (decoding 0 0 [0x00, 0x80, 0x11]))
        (fun t => (t.dec.sp, t.dec.cur, t.dec.canvas, (Table.get t.dec.cim 17).valid))
      = some (11, 0, [], false) := by decide +kernel
/-- K13. -/
theorem test_copy_two :
    shown (step (decoding 0 0 [0x02, 0xC0, 0x01, 0x02]))
        (fun t => (t.dec.sp, t.dec.cur, t.dec.canvas, (Table.get t.dec.cim 2).valid))
      = some (12, 8, [(0, 0x0400F8), (4, 0x0800F4)], true) := by decide +kernel
/-- K16, K17: the missing byte and the position outside the canvas. -/
theorem test_copy_faults :
    shown (step (decoding 0 64000 [0x01, 0xC0, 0x05])) (report .dec) = some (4, 7, 8) ∧
      shown (step (decoding 0 0 [0x05, 0xC0, 0x01, 0x02])) (report .dec) = some (4, 6, 8) := by
  decide +kernel

/-! ## RUN on DEC (95_test_vectors.md section 4) -/

/-- F12's file: what the part before the plane loop leaves. -/
theorem test_run_dec :
    shown (step (issuing .dec 1 (file [0, 0, 12, 0, 8, 0, 2, 0, 0xFF, 0x7F, 0xFF, 0x7F,
        0, 0, 0, 0, 0, 0, 0, 0] true)))
        (fun t => (report .dec t, t.dec.sp, t.dec.csend, t.dec.aw, Table.get t.dec.apal 200))
      = some ((1, 0, 0), 8, 20, 8, 0x20C8DC) := by decide +kernel
/-- F1, F4, F6. -/
theorem test_run_dec_faults :
    shown (step (issuing .dec 1 (file [0, 0, 8, 0, 8, 0, 2, 0, 0, 0, 0, 0, 0, 0, 0, 0] false)))
        (report .dec) = some (4, 3, 0) ∧
      shown (step (issuing .dec 1 (file [0, 0, 8, 0, 0x41, 1, 2, 0, 0, 0, 0, 0, 0, 0, 0, 0] true)))
        (report .dec) = some (4, 5, 4) ∧
      shown (step (issuing .dec 1 (file [0, 0, 9, 0, 8, 0, 2, 0, 0, 0, 0, 0, 0, 0, 0, 0] true)))
        (report .dec) = some (4, 6, 2) := by decide +kernel

/-! ## Host commands (95_test_vectors.md section 5) -/

/-- T1: bytes 01 02 03 0A 0B 0C. -/
theorem test_pal_load_flat :
    shown (exec (.palLoadFlat .enc) (operands .enc 6 0 [1, 2, 3, 10, 11, 12] idle))
        (fun t => (Table.get t.enc.xpal 0, Table.get t.enc.xpal 1, Table.get t.enc.xpal 2, t.enc.palv))
      = some (0x010203, 0x0A0B0C, 0, true) := by decide +kernel
/-- T2, T3. -/
theorem test_pal_load_flat_faults :
    shown (exec (.palLoadFlat .dec) (operands .dec 7 0 [] idle)) (report .dec) = some (4, 1, 0) ∧
      shown (exec (.palLoadFlat .dec) (operands .dec 771 0 [] idle)) (report .dec)
        = some (4, 1, 0) := by decide +kernel
/-- T6, T7, of the first entries. -/
theorem test_pal_load_list :
    shown (exec (.palLoadList .dec) (operands .dec 257 0 [1, 1, 1] idle)) (report .dec)
        = some (4, 1, 0) ∧
      shown (exec (.palLoadList .dec) (operands .dec 256 0 [1, 2, 3, 4, 5, 6] idle))
        (fun t => (Table.get t.dec.xpal 1, t.dec.palv)) = some (0x040506, true) := by decide +kernel
/-- T9, and TPAL[200]. -/
theorem test_pal_get :
    shown (exec (.palGet .dec) (operands .dec 200 0 [] (file [] false))) (fun t => t.dec.res)
        = some 0x20C8DC ∧
      shown (exec (.palGet .dec) (operands .dec 256 0 [] idle)) (report .dec) = some (4, 2, 0) := by
  decide +kernel
/-- T10, T12. -/
theorem test_pal_set :
    shown (exec (.palSet .dec) (operands .dec 255 0xAA112233 [] idle))
        (fun t => Table.get t.dec.xpal 255) = some 0x112233 ∧
      shown (exec (.palSet .dec) (operands .dec 0x10005 1 [] idle))
        (fun t => Table.get t.dec.xpal 5) = some 1 := by decide +kernel
/-- T13, its last two entries, of a palette that is black elsewhere. -/
theorem test_pal_store_flat :
    shown (exec (.palStoreFlat .dec) { idle with dec := { idle.dec with
        xpal := Table.set (Table.set idle.dec.xpal 254 0xFEFEFE) 255 0x112233 } })
        (fun t => t.dec.aux)
      = some (cellsFrom 762 [0xFE, 0xFE, 0xFE, 0x11, 0x22, 0x33]) := by decide +kernel
/-- T17. -/
theorem test_pal_patch :
    shown (exec (.palPatch .enc) idle)
        (fun t => (Table.get t.enc.xpal 197, Table.get t.enc.xpal 198, Table.get t.enc.xpal 255))
      = some (0, 0x00FC04, 0xE41804) := by decide +kernel
/-- T16. -/
theorem test_pal_clear :
    shown (exec (.palClear .dec) (file [] true)) (fun t => (Table.get t.dec.xpal 255, t.dec.palv))
      = some (0, false) := by decide +kernel
/-- T18, T22. -/
theorem test_cim_load :
    shown (exec (.cimLoad .enc) (operands .enc 12 0
        [9, 0x10, 0x20, 0x30, 3, 0x10, 0x20, 0x30, 9, 0xAA, 0xBB, 0xCC]
        (encoding [] 0 0 0 0 0 |> fun s => { s with enc := { s.enc with busy := false } })))
        (fun t => (Table.get t.enc.cim 3, Table.get t.enc.cim 9, (Table.get t.enc.cim 1).valid))
      = some ({ valid := true, colour := 0x102030 }, { valid := true, colour := 0xAABBCC }, false) := by
  decide +kernel
/-- T21. -/
theorem test_cim_store :
    shown (exec (.cimStore .dec) { idle with dec := { idle.dec with cim := testMap } })
        (fun t => (t.dec.aux, t.dec.res))
      = some (cellsFrom 0 [1, 0x10, 0x20, 0x30, 2, 0x40, 0x50, 0x60], 8) := by decide +kernel
/-- T25. -/
theorem test_cim_clear :
    shown (exec (.cimClear .dec) { idle with dec := { idle.dec with cim := testMap } })
        (fun t => ((Table.get t.dec.cim 1).valid, (Table.get t.dec.cim 2).valid))
      = some (false, false) := by decide +kernel
/-- T26. -/
theorem test_reserved_code :
    shown (step (issuing .dec 0x7F idle)) (report .dec) = some (4, 10, 0) := by decide +kernel
/-- T27, T28. -/
theorem test_nop_then_clear :
    shown (exec (.nop .dec) (idle.faultEntry .dec .illegalCommand 0)) (report .dec)
        = some (4, 10, 0) ∧
      shown (exec (.clear .dec) (idle.faultEntry .dec .illegalCommand 0)) (report .dec)
        = some (0, 0, 0) := by decide +kernel

/-- T9 on ENC, after a finished encode: RES and E_OUTLEN stay (R272, D22); a reserved code clears E_OUTLEN
(R278). -/
theorem test_table_fault_enc :
    shown (exec (.palGet .enc) (operands .enc 256 0 []
        { idle with enc := { idle.enc with done := true, outLen := 816 } }))
        (fun t => (report .enc t, t.enc.res, t.enc.outLen)) = some ((4, 2, 0), 0, 816) ∧
      shown (step (issuing .enc 0x7F { idle with enc := { idle.enc with done := true, outLen := 816 } }))
        (fun t => (report .enc t, t.enc.outLen)) = some ((4, 10, 0), 0) := by
  decide +kernel

/-! ## The host's accesses (20_memory.md R83, 41_decoder_sequence.md R161) -/

/-- A pixel inside the 8 by 2 crop window is read; a CIM entry is written as one word (log 9). -/
theorem test_host_accesses :
    shown (step { idle with
        agenda := [.host (.read .canvas 327)]
        dec := { idle.dec with aw := 8, ah := 2, canvas := [(327, 0x1404E8)] } }) (fun t => t.rdata)
        = some 0x1404E8 ∧
      shown (step { idle with agenda := [.host (.write (.cim .enc) 5 0x01102030)] })
        (fun t => Table.get t.enc.cim 5) = some { valid := true, colour := 0x102030 } := by
  decide +kernel

/-! ## RUN on ENC -/

/-- 43_encoder_runs.md R212, R214. -/
theorem test_run_enc :
    shown (step (issuing .enc 1 idle)) (fun t => (report .enc t, t.enc.base, t.enc.wp, t.enc.hasPal))
      = some ((1, 0, 0), 8, 8, 0) := by decide +kernel
/-- 60_exceptions.md R268: a width of 321. -/
theorem test_run_enc_width :
    shown (exec .runEnc { idle with enc := { idle.enc with gw := 321 } }) (report .enc)
      = some (4, 8, 0) := by decide +kernel
/-- 95_test_vectors.md S6 placement (c): COPY 1 2 in plane 0. -/
theorem test_copy_run :
    shown (step (encoding [(0, 0x102030), (4, 0x405060)] 8 1 0 0 8))
        (fun t => (t.enc.eout, t.enc.wp, t.enc.pos))
      = some (cellsFrom 8 [0x02, 0xC0, 0x01, 0x02], 12, 8) := by decide +kernel
/-- 95_test_vectors.md S6 placement (d): SKIP 1 between the two. -/
theorem test_skip_run :
    shown (step (encoding [(0, 0x102030), (8, 0x405060)] 12 1 0 4 11))
        (fun t => (t.enc.eout, t.enc.wp, t.enc.pos))
      = some (cellsFrom 11 [0x01, 0x40], 13, 8) := by decide +kernel
/-- 95_test_vectors.md S7. -/
theorem test_unmapped_colour :
    shown (step (encoding [(5, 0x777777)] 8 1 1 5 8)) (report .enc) = some (4, 4, 5) := by
  decide +kernel
/-- 95_test_vectors.md S6 placement (a), row 0: (0, 1). -/
theorem test_descriptor_row :
    shown (step (encoding [(0, 0x102030), (3, 0x405060)] 4 1 4 0 28))
        (fun t => (memRead16 t.enc.eout 28, memRead16 t.enc.eout 30, t.enc.pending, t.enc.row))
      = some (0, 1, 316, 1) := by decide +kernel

/-! ## Witnesses: for every statement with hypotheses, states and operands that meet all of them

The hypotheses are the statement's own, at concrete values, in the statement's order. -/

/-- A file with an embedded palette of zeros and the stream of four EOP words. -/
def paletteFile : State := { idle with dec := { idle.dec with
  din := cellsFrom 0 [1, 0, 8, 0, 8, 0, 2, 0], inLen := 784 } }

/-- The same with one palette byte, at offset 10, of 64 (F14). -/
def badPaletteFile : State := { idle with dec := { idle.dec with
  din := cellsFrom 0 [1, 0, 8, 0, 8, 0, 2, 0, 0, 0, 64], inLen := 784 } }

/-- A file of four EOP words whose palette is external. -/
def plainFile (palv : Bool) : State :=
  file [0, 0, 8, 0, 8, 0, 2, 0, 0, 0, 0, 0, 0, 0, 0, 0] palv

/-- An idle machine whose DEC has the test map. -/
def mapped : State := { idle with dec := { idle.dec with cim := testMap } }

/-- A DEC whose four planes are done. -/
def decodeDone : State := decoding 4 0 [0, 0]

/-- An ENC whose descriptor is complete. -/
def encodeDone : State :=
  { encoding [] 4 1 4 0 16 with enc := { (encoding [] 4 1 4 0 16).enc with row := 200 } }

/-- An ENC with a full stream, before position `pos` of plane 0. -/
def streamFull (pos : BitVec 17) : State := encoding [(0, 0x102030)] 4 1 0 pos 65542

theorem witness_DecodeOfEncode :
    (Instr.copyRun 16383).wellFormed = true ∧ (Instr.eop 0).wellFormed = true ∧
      (Instr.cimClear .enc).wellFormed = true := by decide

theorem witness_EncodeOfDecode :
    decode .stream [0xFF#8, 0x3F#8, 0x01#8] = .ok (.eop 16383, [0x01#8]) ∧
      decode (.cmd .enc) [0x01#8] = .ok (.runEnc, []) := by decide

theorem witness_WordFieldsSelectCommand :
    (16383 = ((0xFF#8).toNat + 256 * (0x3F#8).toNat) % 16384 ∧ (0x3F#8).toNat / 64 = 0) ∧
    (0 = ((0x00#8).toNat + 256 * (0x40#8).toNat) % 16384 ∧ (0x40#8).toNat / 64 = 1) ∧
    (16383 = ((0xFF#8).toNat + 256 * (0xBF#8).toNat) % 16384 ∧ (0xBF#8).toNat / 64 = 2) ∧
    (0 = ((0x00#8).toNat + 256 * (0xC0#8).toNat) % 16384 ∧ (0xC0#8).toNat / 64 = 3) := by decide

theorem witness_ParseOfCommandBytes :
    (TaggedCommand.copyIndices 2 [0x01#8, 0x02#8]).wellFormed = true ∧
      (TaggedCommand.repeatIndex 16383 0x05#8).wellFormed = true := by decide

/-- The three ways DEC can be the one to move. -/
theorem witness_DecMoves (s : State) (h : s.dec.busy = true) :
    ({ s with agenda := [] } : State).DecMoves { s with agenda := [] } ∧
      ({ s with agenda := [.engine .dec] } : State).DecMoves { s with agenda := [] } ∧
      ({ s with agenda := [.poll .dec] } : State).DecMoves { s with agenda := [.poll .dec] } :=
  ⟨.inl ⟨rfl, h, rfl⟩, .inr (.inl ⟨[], rfl, rfl⟩), .inr (.inr ⟨[], rfl, h, rfl⟩)⟩

/-- The three ways ENC can be the one to move. -/
theorem witness_EncMoves (s : State) (hd : s.dec.busy = false) (h : s.enc.busy = true) :
    ({ s with agenda := [] } : State).EncMoves { s with agenda := [] } ∧
      ({ s with agenda := [.engine .enc] } : State).EncMoves { s with agenda := [] } ∧
      ({ s with agenda := [.poll .enc] } : State).EncMoves { s with agenda := [.poll .enc] } :=
  ⟨.inl ⟨rfl, hd, rfl⟩, .inr (.inl ⟨[], rfl, rfl⟩), .inr (.inr ⟨[], rfl, h, rfl⟩)⟩

/-- DEC moves in every test state of its plane loop. -/
theorem decoding_moves (plane : BitVec 3) (cur : BitVec 32) (bytes : List Nat) :
    (decoding plane cur bytes).DecMoves (decoding plane cur bytes) := .inl ⟨rfl, rfl, rfl⟩

/-- ENC moves in every test state of its walk. -/
theorem encoding_moves (pixels : PixelSpace) (gw gh : BitVec 16) (plane : BitVec 3)
    (pos wp : BitVec 17) :
    (encoding pixels gw gh plane pos wp).EncMoves (encoding pixels gw gh plane pos wp) :=
  .inl ⟨rfl, rfl, rfl⟩

theorem witness_StepRunsDecodedCommand :
    (decoding 3 320 [2, 0x80, 5]).DecMoves (decoding 3 320 [2, 0x80, 5]) ∧
      (decoding 3 320 [2, 0x80, 5]).dec.busy = true ∧
      (decoding 3 320 [2, 0x80, 5]).dec.plane.toNat < 4 ∧
      (decoding 3 320 [2, 0x80, 5]).dec.sp.toNat + 2 ≤ (decoding 3 320 [2, 0x80, 5]).dec.csend.toNat ∧
      (decoding 3 320 [2, 0x80, 5]).dec.sp.toNat + 1 < 67111 ∧
      decode .stream [memRead8 (decoding 3 320 [2, 0x80, 5]).dec.din 8,
        memRead8 (decoding 3 320 [2, 0x80, 5]).dec.din 9] = .ok (.repeatRun 2, []) :=
  ⟨decoding_moves _ _ _, by decide +kernel⟩

theorem witness_ReservedCodeRaisesIllegalCommand :
    (issuing .enc 0x107F idle).agenda = .host (.writeReg .enc 0 0x107F) :: [] ∧
      ((issuing .enc 0x107F idle).regs .enc).busy = false ∧
      (0x107F : Word32).toNat % 256 ∉ [0x00, 0x01, 0x02, 0x10, 0x11, 0x12, 0x13, 0x14, 0x15, 0x16,
        0x20, 0x21, 0x22] := by decide +kernel

theorem witness_CommandWriteNeedsIdleEngine :
    (issuing .dec 2 decodeDone).agenda = .host (.writeReg .dec 0 2) :: [] ∧
      ((issuing .dec 2 decodeDone).regs .dec).busy = true ∧
      (issuing .enc 2 idle).agenda = .host (.writeReg .enc 0 2) :: [] ∧
      ((issuing .enc 2 idle).regs .enc).busy = false ∧
      decode (.cmd .enc) [(2 : Word32).extractLsb' 0 8] = .ok (.clear .enc, []) := by decide +kernel

theorem witness_EopOpensNextPlane :
    ((fetched 2 7 [0, 0]).dec.plane.toNat < 4 ∧ (fetched 2 7 [0, 0]).dec.plane.toNat + 1 < 4) ∧
      ((fetched 3 7 [0, 0]).dec.plane.toNat < 4 ∧ (fetched 3 7 [0, 0]).dec.plane.toNat + 1 = 4) := by
  decide +kernel

theorem witness_SkipMovesCursorOnly :
    16383 ≤ 16383 ∧ (fetched 0 65532 [0xFF, 0x7F]).dec.cur.toNat + 4 * 16383 < 2 ^ 32 := by
  decide +kernel

theorem witness_RepeatWritesOneIndex :
    Memory.wf (fetched 3 63995 [2, 0x80, 5]) = true ∧ 2 ≤ 16383 ∧
      (fetched 3 63995 [2, 0x80, 5]).dec.sp.toNat < (fetched 3 63995 [2, 0x80, 5]).dec.csend.toNat ∧
      (fetched 3 63995 [2, 0x80, 5]).dec.csend.toNat ≤ 67111 ∧
      (∀ k < 2, (fetched 3 63995 [2, 0x80, 5]).dec.cur.toNat + 4 * k < 64000) ∧
      5#8 = memRead8 (fetched 3 63995 [2, 0x80, 5]).dec.din
        (fetched 3 63995 [2, 0x80, 5]).dec.sp.toNat ∧
      (0x1404E8 : Colour) = Table.get (fetched 3 63995 [2, 0x80, 5]).dec.apal 5#8 := by decide +kernel

/-- The count 0 of REPEAT, beyond the canvas. -/
theorem witness_RepeatWritesOneIndex_zero :
    Memory.wf (fetched 0 70000 [0, 0x80, 5]) = true ∧ 0 ≤ 16383 ∧
      (fetched 0 70000 [0, 0x80, 5]).dec.sp.toNat < (fetched 0 70000 [0, 0x80, 5]).dec.csend.toNat ∧
      (fetched 0 70000 [0, 0x80, 5]).dec.csend.toNat ≤ 67111 ∧
      (∀ k < 0, (fetched 0 70000 [0, 0x80, 5]).dec.cur.toNat + 4 * k < 64000) ∧
      5#8 = memRead8 (fetched 0 70000 [0, 0x80, 5]).dec.din
        (fetched 0 70000 [0, 0x80, 5]).dec.sp.toNat ∧
      (0x1404E8 : Colour) = Table.get (fetched 0 70000 [0, 0x80, 5]).dec.apal 5#8 := by decide +kernel

theorem witness_CopyWritesEachIndex :
    Memory.wf (fetched 0 0 [2, 0xC0, 1, 2]) = true ∧ 2 ≤ 16383 ∧
      (fetched 0 0 [2, 0xC0, 1, 2]).dec.sp.toNat + 2 ≤ (fetched 0 0 [2, 0xC0, 1, 2]).dec.csend.toNat ∧
      (fetched 0 0 [2, 0xC0, 1, 2]).dec.csend.toNat ≤ 67111 ∧
      (∀ k < 2, (fetched 0 0 [2, 0xC0, 1, 2]).dec.cur.toNat + 4 * k < 64000) ∧
      (∀ k, (fun k => memRead8 (fetched 0 0 [2, 0xC0, 1, 2]).dec.din (10 + k)) k
        = memRead8 (fetched 0 0 [2, 0xC0, 1, 2]).dec.din
          ((fetched 0 0 [2, 0xC0, 1, 2]).dec.sp.toNat + k)) := by
  refine ⟨?_, ?_, ?_, ?_, ?_, fun k => rfl⟩ <;> decide +kernel

/-- REPEAT without its index byte (K18), and one position too many (K12's last position). -/
theorem witness_RepeatFaultsInOrder :
    (2 ≤ (fetched 0 0 [1, 0x80]).dec.sp.toNat ∧ (fetched 0 0 [1, 0x80]).dec.csend.toNat ≤ 67111 ∧
      (fetched 0 0 [1, 0x80]).dec.csend.toNat ≤ (fetched 0 0 [1, 0x80]).dec.sp.toNat) ∧
    (2 ≤ (fetched 0 63996 [2, 0x80, 1]).dec.sp.toNat ∧
      (fetched 0 63996 [2, 0x80, 1]).dec.csend.toNat ≤ 67111 ∧ 1 < 2 ∧
      (fetched 0 63996 [2, 0x80, 1]).dec.sp.toNat < (fetched 0 63996 [2, 0x80, 1]).dec.csend.toNat ∧
      64000 ≤ (fetched 0 63996 [2, 0x80, 1]).dec.cur.toNat + 4 * 1) := by decide +kernel

/-- COPY whose second payload byte is missing, and whose second position is outside the canvas. -/
theorem witness_CopyFaultsElementByElement :
    (2 ≤ (fetched 0 0 [5, 0xC0, 1]).dec.sp.toNat ∧ (fetched 0 0 [5, 0xC0, 1]).dec.csend.toNat ≤ 67111 ∧
      1 < 5 ∧
      (∀ j < 1, (fetched 0 0 [5, 0xC0, 1]).dec.sp.toNat + j < (fetched 0 0 [5, 0xC0, 1]).dec.csend.toNat ∧
        (fetched 0 0 [5, 0xC0, 1]).dec.cur.toNat + 4 * j < 64000) ∧
      (fetched 0 0 [5, 0xC0, 1]).dec.csend.toNat ≤ (fetched 0 0 [5, 0xC0, 1]).dec.sp.toNat + 1) ∧
    (2 ≤ (fetched 0 63996 [2, 0xC0, 1, 2]).dec.sp.toNat ∧
      (fetched 0 63996 [2, 0xC0, 1, 2]).dec.csend.toNat ≤ 67111 ∧ 1 < 2 ∧
      (∀ j < 1, (fetched 0 63996 [2, 0xC0, 1, 2]).dec.sp.toNat + j
          < (fetched 0 63996 [2, 0xC0, 1, 2]).dec.csend.toNat ∧
        (fetched 0 63996 [2, 0xC0, 1, 2]).dec.cur.toNat + 4 * j < 64000) ∧
      (fetched 0 63996 [2, 0xC0, 1, 2]).dec.sp.toNat + 1
        < (fetched 0 63996 [2, 0xC0, 1, 2]).dec.csend.toNat ∧
      64000 ≤ (fetched 0 63996 [2, 0xC0, 1, 2]).dec.cur.toNat + 4 * 1) := by decide +kernel

/-- One byte left for a word (K19). -/
theorem witness_FetchPastRegionUnderruns :
    (decoding 3 0 [0]).DecMoves (decoding 3 0 [0]) ∧ (decoding 3 0 [0]).dec.busy = true ∧
      (decoding 3 0 [0]).dec.plane.toNat < 4 ∧
      (decoding 3 0 [0]).dec.csend.toNat < (decoding 3 0 [0]).dec.sp.toNat + 2 :=
  ⟨decoding_moves _ _ _, by decide +kernel⟩

/-- What a `Decoder` part answers when it goes on, for the witnesses. -/
def reached (r : Except Stop Decoder) : Bool :=
  match r with
  | .ok _ => true
  | .error _ => false

/-- COPY 1 2 and one byte more: parsed, and applied. -/
theorem witness_ParseThenApplyAgrees :
    (decoding 0 0 [2, 0xC0, 1, 2, 0]).dec.csend.toNat ≤ 67111 ∧
      (decoding 0 0 [2, 0xC0, 1, 2, 0]).dec.fetchWord = .ok { (fetched 0 0 [2, 0xC0, 1, 2, 0]).dec with
        word := 0xC002, cnt := 2 } ∧
      TaggedCommand.parse ((decoding 0 0 [2, 0xC0, 1, 2, 0]).dec.dinBytes 8 5)
        = some (.copyIndices 2 [1, 2], [0]) ∧
      ∃ d, TaggedCommand.apply testPar.sentinel 8 (.copyIndices 2 [1, 2])
        { (fetched 0 0 [2, 0xC0, 1, 2, 0]).dec with word := 0xC002, cnt := 2 } = .ok d := by
  refine ⟨?_, rfl, ?_, _, rfl⟩ <;> decide +kernel

/-- COPY 1 at position 64000: parsed, and faulting. -/
theorem witness_ParseThenApplyAgrees_raised :
    (decoding 0 64000 [1, 0xC0, 1]).dec.csend.toNat ≤ 67111 ∧
      (decoding 0 64000 [1, 0xC0, 1]).dec.fetchWord = .ok { (fetched 0 64000 [1, 0xC0, 1]).dec with
        word := 0xC001, cnt := 1 } ∧
      TaggedCommand.parse ((decoding 0 64000 [1, 0xC0, 1]).dec.dinBytes 8 3)
        = some (.copyIndices 1 [1], []) ∧
      TaggedCommand.apply testPar.sentinel 8 (.copyIndices 1 [1])
        { (fetched 0 64000 [1, 0xC0, 1]).dec with word := 0xC001, cnt := 1 }
        = .error (.raised .canvasOverrun 8) := by
  refine ⟨?_, rfl, ?_, rfl⟩ <;> decide +kernel

theorem witness_RunDecWithExternalPalette :
    (plainFile true).dec.busy = false ∧ 8 ≤ (plainFile true).dec.inLen.toNat ∧
      (memRead16 (plainFile true).dec.din 0).toNat = 0 ∧
      (memRead16 (plainFile true).dec.din 4).toNat ≤ 320 ∧
      (memRead16 (plainFile true).dec.din 6).toNat ≤ 200 ∧ (plainFile true).dec.palv = true ∧
      8 + (memRead16 (plainFile true).dec.din 2).toNat ≤ (plainFile true).dec.inLen.toNat := by
  decide +kernel

theorem witness_RunDecWithEmbeddedPalette :
    paletteFile.dec.busy = false ∧ (memRead16 paletteFile.dec.din 0).toNat = 1 ∧
      (memRead16 paletteFile.dec.din 4).toNat ≤ 320 ∧ (memRead16 paletteFile.dec.din 6).toNat ≤ 200 ∧
      776 + (memRead16 paletteFile.dec.din 2).toNat ≤ paletteFile.dec.inLen.toNat ∧
      (∀ a, 8 ≤ a → a < 776 → (memRead8 paletteFile.dec.din a).toNat ≤ 63) := by
  have h : ∀ a < 776, 8 ≤ a → (memRead8 paletteFile.dec.din a).toNat ≤ 63 := by decide +kernel
  refine ⟨?_, ?_, ?_, ?_, ?_, fun a h1 h2 => h a h2 h1⟩ <;> decide +kernel

/-- The header of a state's file. -/
def headerOf (s : State) : List Nat :=
  [s.dec.inLen.toNat, (memRead16 s.dec.din 0).toNat, (memRead16 s.dec.din 2).toNat,
    (memRead16 s.dec.din 4).toNat, (memRead16 s.dec.din 6).toNat]

/-- Length, flag, stream length, width, height: a file for each clause, at the clause's boundary
(F1 to F6, F13 and the last byte before each bound). -/
theorem witness_RunDecChecksInOrder :
    (file [0, 0, 0, 0, 0, 0, 0] true).dec.busy = false ∧
      headerOf (file [0, 0, 0, 0, 0, 0, 0] true) = [7, 0, 0, 0, 0] ∧
      headerOf (file [2, 0, 0, 0, 0x41, 1, 201, 0] true) = [8, 2, 0, 321, 201] ∧
      headerOf (file [1, 0, 0, 0, 0x41, 1, 201, 0] true) = [8, 1, 0, 321, 201] ∧
      headerOf (file [1, 0, 0, 0, 0x40, 1, 201, 0] true) = [8, 1, 0, 320, 201] ∧
      (headerOf (file [0, 0, 1, 0, 0x40, 1, 200, 0] false) = [8, 0, 1, 320, 200] ∧
        (file [0, 0, 1, 0, 0x40, 1, 200, 0] false).dec.palv = false) ∧
      (headerOf (file [0, 0, 1, 0, 0x40, 1, 200, 0] true) = [8, 0, 1, 320, 200] ∧
        (file [0, 0, 1, 0, 0x40, 1, 200, 0] true).dec.palv = true) ∧
      headerOf { paletteFile with dec := { paletteFile.dec with inLen := 775 } } = [775, 1, 8, 8, 2] ∧
      headerOf { paletteFile with dec := { paletteFile.dec with inLen := 783 } } = [783, 1, 8, 8, 2] := by
  decide +kernel

/-- The clauses of an embedded palette: the first byte above 63 at offset 10, and none at all. -/
theorem witness_RunDecChecksInOrder_palette :
    (headerOf badPaletteFile = [784, 1, 8, 8, 2] ∧ 63 < (memRead8 badPaletteFile.dec.din 10).toNat ∧
      (∀ b, 8 ≤ b → b < 10 → (memRead8 badPaletteFile.dec.din b).toNat ≤ 63)) ∧
    (∀ a, 8 ≤ a → a < 776 → (memRead8 paletteFile.dec.din a).toNat ≤ 63) := by
  have h : ∀ b < 10, 8 ≤ b → (memRead8 badPaletteFile.dec.din b).toNat ≤ 63 := by decide +kernel
  exact ⟨⟨by decide +kernel, by decide +kernel, fun b h1 h2 => h b h2 h1⟩,
    witness_RunDecWithEmbeddedPalette.2.2.2.2.2⟩

/-- Two machines that differ in everything but the inputs: the second has pixels and a map of old. -/
theorem witness_RunDecDependsOnInputsOnly :
    ∃ s s' t t' : State, s.dec.busy = false ∧ s'.dec.busy = false ∧ s.par = s'.par ∧
      s.dec.inLen = s'.dec.inLen ∧ s.dec.palv = s'.dec.palv ∧ s.dec.patchEn = s'.dec.patchEn ∧
      s.dec.xpal = s'.dec.xpal ∧
      (∀ a < s.dec.inLen.toNat, memRead8 s.dec.din a = memRead8 s'.dec.din a) ∧
      exec .runDec s = .next t ∧ exec .runDec s' = .next t' ∧ t.dec.err = false ∧
      s.dec.canvas ≠ s'.dec.canvas := by
  refine ⟨plainFile true, { plainFile true with dec := { (plainFile true).dec with
    canvas := [(0, 1)], cim := testMap } }, _, _, rfl, rfl, rfl, rfl, rfl, rfl, rfl, fun _ _ => rfl,
    rfl, rfl, ?_, ?_⟩ <;> decide +kernel

theorem witness_ClearAcknowledges : idle.dec.busy = false ∧ idle.enc.busy = false := by decide +kernel

/-- Indices 255 and 256; the two bits above the index field are set. -/
theorem witness_PalGetAndPalSetByIndex :
    ((operands .dec 0x300FF 0 [] idle).regs .dec).busy = false ∧
      255 = ((operands .dec 0x300FF 0 [] idle).regs .dec).arg0.toNat % 65536 ∧ 255 ≤ 255 ∧
      ((operands .enc 0x30100 0 [] idle).regs .enc).busy = false ∧
      256 = ((operands .enc 0x30100 0 [] idle).regs .enc).arg0.toNat % 65536 ∧ 255 < 256 := by
  decide +kernel

/-- Byte counts 768, 767, 771 and the list counts 256, 255. -/
theorem witness_PaletteLoadsParseTriplets :
    ((operands .dec 768 0 [] idle).regs .dec).busy = false ∧
      768 = ((operands .dec 768 0 [] idle).regs .dec).arg0.toNat % 65536 ∧ 768 % 3 = 0 ∧ 768 ≤ 768 ∧
      767 = ((operands .dec 767 0 [] idle).regs .dec).arg0.toNat % 65536 ∧ 767 % 3 ≠ 0 ∧
      771 = ((operands .dec 771 0 [] idle).regs .dec).arg0.toNat % 65536 ∧ 768 < 771 ∧
      256 = ((operands .dec 256 0 [] idle).regs .dec).arg0.toNat % 65536 ∧
      255 = ((operands .dec 255 0 [] idle).regs .dec).arg0.toNat % 65536 ∧ 255 ≠ 256 := by
  decide +kernel

theorem witness_PalStoreFlatWritesTriplets :
    Memory.wf (file [] true) = true ∧ ((file [] true).regs .dec).busy = false := by decide +kernel

/-- Entries of every kind: 197, a coloured one above, and the black entries 198 and 255. -/
theorem witness_PalPatchReplacesBlackTail :
    (idle.regs .dec).busy = false ∧ (197#8).toNat < 198 ∧
      Table.get ((file [] true).regs .dec).xpal 254#8 ≠ 0 ∧
      (198#8).toNat = 198 + (0 : Fin 58).val ∧ Table.get (idle.regs .dec).xpal 198#8 = 0 ∧
      (255#8).toNat = 198 + (57 : Fin 58).val ∧ Table.get (idle.regs .dec).xpal 255#8 = 0 := by
  decide +kernel

theorem witness_ClearingCommandsEmptyTables :
    (mapped.regs .dec).busy = false ∧ (mapped.regs .enc).busy = false := by decide +kernel

theorem witness_PaletteStoreThenLoadIsIdentity :
    Memory.wf (file [] true) = true ∧ ((file [] true).regs .dec).busy = false ∧
      ∃ t, exec (.palStoreFlat .dec) (file [] true) = .next t :=
  ⟨by decide +kernel, by decide +kernel, _, rfl⟩

/-- The valid index 2 is record 1. -/
theorem witness_CimStoreWritesRecords :
    Memory.wf mapped = true ∧ (mapped.regs .dec).busy = false ∧
      (Table.get (mapped.regs .dec).cim 2#8).valid = true ∧
      1 = validBelow (mapped.regs .dec).cim (2#8).toNat := by decide +kernel

/-- Byte counts 8, 1024, 6 and 1028; of the two records 0 and 1, record 1 is the last of its index,
and index 7 has no record. -/
theorem witness_CimLoadTakesRecords :
    ((operands .enc 8 0 [1, 2, 3, 4, 5, 6, 7, 8] idle).regs .enc).busy = false ∧
      8 = ((operands .enc 8 0 [1, 2, 3, 4, 5, 6, 7, 8] idle).regs .enc).arg0.toNat % 65536 ∧
      8 % 4 = 0 ∧ 8 ≤ 1024 ∧ 1 < 8 / 4 ∧
      (∀ j < 8 / 4, 1 < j →
        memRead8 ((operands .enc 8 0 [1, 2, 3, 4, 5, 6, 7, 8] idle).regs .enc).aux (4 * j)
          ≠ memRead8 ((operands .enc 8 0 [1, 2, 3, 4, 5, 6, 7, 8] idle).regs .enc).aux (4 * 1)) ∧
      (∀ k < 8 / 4,
        memRead8 ((operands .enc 8 0 [1, 2, 3, 4, 5, 6, 7, 8] idle).regs .enc).aux (4 * k) ≠ 7#8) ∧
      1024 = ((operands .enc 1024 0 [] idle).regs .enc).arg0.toNat % 65536 ∧ 1024 % 4 = 0 ∧
      6 = ((operands .enc 6 0 [] idle).regs .enc).arg0.toNat % 65536 ∧ 6 % 4 ≠ 0 ∧
      1028 = ((operands .enc 1028 0 [] idle).regs .enc).arg0.toNat % 65536 ∧ 1024 < 1028 := by
  decide +kernel

theorem witness_MapTravelsFromDecToEnc :
    ∃ s t u : State, Memory.wf s = true ∧ s.dec.busy = false ∧ exec (.cimStore .dec) s = .next t ∧
      u.enc.busy = false ∧ u.enc.arg0 = t.dec.res ∧
      (∀ a < t.dec.res.toNat, memRead8 u.enc.aux a = memRead8 t.dec.aux a) ∧
      (Table.get s.dec.cim 2).valid = true := by
  refine ⟨mapped, _, operands .enc 8 0 [1, 0x10, 0x20, 0x30, 2, 0x40, 0x50, 0x60] mapped, ?_, ?_, rfl,
    ?_, ?_, ?_, ?_⟩ <;> decide +kernel

/-- A grid of the whole canvas, one too wide, one too high. -/
theorem witness_RunEncBeginsWalk :
    idle.enc.busy = false ∧
      ({ idle.enc with gw := 320, gh := 200 } : Encoder).gw.toNat ≤ 320 ∧
      ({ idle.enc with gw := 320, gh := 200 } : Encoder).gh.toNat ≤ 200 ∧
      320 < ({ idle.enc with gw := 321, gh := 200 } : Encoder).gw.toNat ∧
      200 < ({ idle.enc with gw := 320, gh := 201 } : Encoder).gh.toNat := by decide +kernel

/-- A SKIP run before an opaque pixel, with room for its word, and one that reaches the end of its plane on
a full stream. -/
theorem witness_SkipRunCountsTransparent (pos wp : BitVec 17)
    (h : pos = 4 ∧ wp = 65541 ∨ pos = 63996 ∧ wp = 65543) (s : State)
    (hs : s = encoding [(8, 0x405060)] 12 1 0 pos wp) :
    s.EncMoves s ∧ Memory.wf s = true ∧ s.enc.busy = true ∧ s.enc.plane.toNat < 4 ∧
      s.enc.pos.toNat < 64000 ∧ s.enc.transparent s.par.sentinel s.enc.pos.toNat = true := by
  subst hs
  refine ⟨encoding_moves _ _ _ _ _ _, ?_⟩
  obtain ⟨rfl, rfl⟩ | ⟨rfl, rfl⟩ := h <;> decide +kernel

/-- The two ends of those runs, of one position each. -/
theorem witness_SkipRunCountsTransparent_ends :
    64000 ≤ (encoding [(8, 0x405060)] 12 1 0 63996 65543).enc.pos.toNat + 4 * 1 ∧
      ((encoding [(8, 0x405060)] 12 1 0 4 65541).enc.pos.toNat + 4 * 1 < 64000 ∧
        (encoding [(8, 0x405060)] 12 1 0 4 65541).enc.base.toNat ≤ 776 ∧
        (encoding [(8, 0x405060)] 12 1 0 4 65541).enc.wp.toNat + 2
          ≤ (encoding [(8, 0x405060)] 12 1 0 4 65541).enc.base.toNat + 65535) := by
  decide +kernel

/-- The lookup of the two colours of a COPY run over positions 0 and 4 of a grid 8 pixels wide. -/
theorem witness_CopyRunEmitsIndices :
    (encoding [(0, 0x102030), (4, 0x405060)] 8 1 0 0 8).EncMoves
        (encoding [(0, 0x102030), (4, 0x405060)] 8 1 0 0 8) ∧
      Memory.wf (encoding [(0, 0x102030), (4, 0x405060)] 8 1 0 0 8) = true ∧
      (encoding [(0, 0x102030), (4, 0x405060)] 8 1 0 0 8).enc.busy = true ∧
      (encoding [(0, 0x102030), (4, 0x405060)] 8 1 0 0 8).enc.plane.toNat < 4 ∧
      (∀ k < 2, (0#17).toNat + 4 * k < 64000 ∧
        (encoding [(0, 0x102030), (4, 0x405060)] 8 1 0 0 8).enc.transparent testPar.sentinel
          ((0#17).toNat + 4 * k) = false ∧
        lookupColour testMap ((encoding [(0, 0x102030), (4, 0x405060)] 8 1 0 0 8).enc.pix
          testPar.sentinel ((0#17).toNat + 4 * k)) ≠ none) ∧
      (encoding [(0, 0x102030), (4, 0x405060)] 8 1 0 0 8).enc.transparent testPar.sentinel
        ((0#17).toNat + 4 * 2) = true ∧
      (encoding [(0, 0x102030), (4, 0x405060)] 8 1 0 0 8).enc.base.toNat ≤ 776 ∧
      (encoding [(0, 0x102030), (4, 0x405060)] 8 1 0 0 8).enc.wp.toNat + 2 + 2
        ≤ (encoding [(0, 0x102030), (4, 0x405060)] 8 1 0 0 8).enc.base.toNat + 65535 := by
  refine ⟨encoding_moves _ _ _ _ _ _, ?_⟩
  decide +kernel

/-- A COPY run that ends with its plane: the last pixel of the canvas alone. -/
theorem witness_CopyRunEmitsIndices_last :
    (encoding [(63999, 0x102030)] 320 200 3 63999 8).enc.transparent testPar.sentinel 63999 = false ∧
      lookupColour testMap ((encoding [(63999, 0x102030)] 320 200 3 63999 8).enc.pix
        testPar.sentinel 63999) ≠ none ∧
      64000 ≤ (encoding [(63999, 0x102030)] 320 200 3 63999 8).enc.pos.toNat + 4 * 1 := by
  decide +kernel

/-- A mapped colour, then one the map does not hold. -/
theorem witness_UnmappedColourAbortsEncode :
    (encoding [(0, 0x102030), (4, 0x777777)] 8 1 0 0 8).EncMoves
        (encoding [(0, 0x102030), (4, 0x777777)] 8 1 0 0 8) ∧
      (encoding [(0, 0x102030), (4, 0x777777)] 8 1 0 0 8).enc.busy = true ∧
      (encoding [(0, 0x102030), (4, 0x777777)] 8 1 0 0 8).enc.plane.toNat < 4 ∧ 1 < 16383 ∧
      (∀ k < 1, lookupColour testMap ((encoding [(0, 0x102030), (4, 0x777777)] 8 1 0 0 8).enc.pix
        testPar.sentinel ((0#17).toNat + 4 * k)) ≠ none) ∧
      (∀ k < 2, (0#17).toNat + 4 * k < 64000 ∧
        (encoding [(0, 0x102030), (4, 0x777777)] 8 1 0 0 8).enc.transparent testPar.sentinel
          ((0#17).toNat + 4 * k) = false) ∧
      lookupColour testMap ((encoding [(0, 0x102030), (4, 0x777777)] 8 1 0 0 8).enc.pix
        testPar.sentinel ((0#17).toNat + 4 * 1)) = none ∧
      (encoding [(0, 0x102030), (4, 0x777777)] 8 1 0 0 8).enc.base.toNat ≤ 776 ∧
      (encoding [(0, 0x102030), (4, 0x777777)] 8 1 0 0 8).enc.wp.toNat + 2 + 1
        ≤ (encoding [(0, 0x102030), (4, 0x777777)] 8 1 0 0 8).enc.base.toNat + 65535 := by
  refine ⟨encoding_moves _ _ _ _ _ _, ?_⟩
  decide +kernel

/-- A full stream at the end of a plane, and before an opaque pixel. -/
theorem witness_StreamLengthIsBounded :
    (streamFull 64000).EncMoves (streamFull 64000) ∧ (streamFull 0).EncMoves (streamFull 0) ∧
      (streamFull 0).enc.busy = true ∧ (streamFull 0).enc.plane.toNat < 4 ∧
      (streamFull 0).enc.base.toNat + 65535 < (streamFull 0).enc.wp.toNat + 2 ∧
      64000 ≤ (streamFull 64000).enc.pos.toNat ∧
      (streamFull 0).enc.transparent testPar.sentinel 0 = false := by
  refine ⟨encoding_moves _ _ _ _ _ _, encoding_moves _ _ _ _ _ _, ?_⟩
  decide +kernel

/-- A full stream before a SKIP run of one position, 4, which ends at the opaque position 8. -/
theorem witness_StreamLengthIsBounded_skip (s : State)
    (hs : s = encoding [(8, 0x405060)] 12 1 0 4 65542) :
    s.EncMoves s ∧ s.enc.busy = true ∧ s.enc.plane.toNat < 4 ∧
      s.enc.base.toNat + 65535 < s.enc.wp.toNat + 2 ∧ 1 ≤ 1 ∧ 1 ≤ 16383 ∧
      s.enc.pos.toNat + 4 * 1 < 64000 ∧
      (∀ k < 1, s.enc.transparent s.par.sentinel (s.enc.pos.toNat + 4 * k) = true) ∧
      s.enc.transparent s.par.sentinel (s.enc.pos.toNat + 4 * 1) = false := by
  subst hs
  refine ⟨encoding_moves _ _ _ _ _ _, ?_⟩
  decide +kernel

/-- A COPY run of two opaque positions on a stream with room for the count word and one index byte. -/
theorem witness_StreamLengthIsBounded_index (s : State)
    (hs : s = encoding [(0, 0x102030), (4, 0x405060)] 8 1 0 0 65540) :
    s.EncMoves s ∧ s.enc.busy = true ∧ s.enc.plane.toNat < 4 ∧
      s.enc.wp.toNat + 2 + 1 = s.enc.base.toNat + 65535 ∧ 1 < 16383 ∧ s.enc.base.toNat ≤ 776 ∧
      (∀ k < 2, s.enc.pos.toNat + 4 * k < 64000 ∧
        s.enc.transparent s.par.sentinel (s.enc.pos.toNat + 4 * k) = false ∧
        lookupColour s.enc.cim (s.enc.pix s.par.sentinel (s.enc.pos.toNat + 4 * k)) ≠ none) := by
  subst hs
  refine ⟨encoding_moves _ _ _ _ _ _, ?_⟩
  decide +kernel

theorem witness_EndOfPlaneEmitsEop :
    (encoding [] 4 1 2 64002 12).EncMoves (encoding [] 4 1 2 64002 12) ∧
      Memory.wf (encoding [] 4 1 2 64002 12) = true ∧ (encoding [] 4 1 2 64002 12).enc.busy = true ∧
      (encoding [] 4 1 2 64002 12).enc.plane.toNat < 3 ∧
      64000 ≤ (encoding [] 4 1 2 64002 12).enc.pos.toNat ∧
      (encoding [] 4 1 2 64002 12).enc.base.toNat ≤ 776 ∧
      (encoding [] 4 1 2 64002 12).enc.wp.toNat + 2
        ≤ (encoding [] 4 1 2 64002 12).enc.base.toNat + 65535 := by
  refine ⟨encoding_moves _ _ _ _ _ _, ?_⟩
  decide +kernel

/-- The end of plane 3, without and with a palette. -/
theorem witness_LastPlaneWritesHeaderAndPalette (palette : Bool) (s : State)
    (hs : s = { encoding [] 4 1 3 64003 800 with enc := { (encoding [] 4 1 3 64003 800).enc with
      hasPal := if palette then 1 else 0, base := if palette then 776 else 8 } }) :
    s.EncMoves s ∧ Memory.wf s = true ∧ s.enc.busy = true ∧ s.enc.plane.toNat = 3 ∧
      64000 ≤ s.enc.pos.toNat ∧ s.enc.hasPal.toNat ≤ 1 ∧
      s.enc.base.toNat = 8 + 768 * s.enc.hasPal.toNat ∧ s.enc.base.toNat ≤ s.enc.wp.toNat ∧
      s.enc.wp.toNat + 2 ≤ s.enc.base.toNat + 65535 := by
  subst hs
  refine ⟨.inl ⟨rfl, rfl, rfl⟩, ?_⟩
  cases palette <;> decide +kernel

/-- Row 0 of a grid with opaque columns 0 and 3, at a carried count of 316. -/
def rowState (pixels : PixelSpace) : State :=
  { encoding pixels 4 1 4 0 16 with enc := { (encoding pixels 4 1 4 0 16).enc with pending := 316 } }

theorem witness_DescriptorRowValues (pixels : PixelSpace)
    (h : pixels = [] ∨ pixels = [(0, 0x102030), (3, 0x102030)]) :
    (rowState pixels).EncMoves (rowState pixels) ∧ Memory.wf (rowState pixels) = true ∧
      (rowState pixels).enc.busy = true ∧ 4 ≤ (rowState pixels).enc.plane.toNat ∧
      0 = (rowState pixels).enc.row.toNat ∧ 0 < 200 ∧ (rowState pixels).enc.wp.toNat + 800 ≤ 67111 ∧
      316 = (rowState pixels).enc.pending.toNat := by
  refine ⟨.inl ⟨rfl, rfl, rfl⟩, ?_⟩
  obtain rfl | rfl := h <;> decide +kernel

/-- The two cases of a row: no opaque column, and the outermost opaque columns 0 and 3. -/
theorem witness_DescriptorRowValues_columns :
    (∀ x < 320, (rowState []).enc.transparent testPar.sentinel (320 * 0 + x) = true) ∧
      (0 ≤ 3 ∧ 3 < 320 ∧
        (rowState [(0, 0x102030), (3, 0x102030)]).enc.transparent testPar.sentinel (320 * 0 + 0)
          = false ∧
        (rowState [(0, 0x102030), (3, 0x102030)]).enc.transparent testPar.sentinel (320 * 0 + 3)
          = false ∧
        (∀ x < 320, (rowState [(0, 0x102030), (3, 0x102030)]).enc.transparent testPar.sentinel
          (320 * 0 + x) = false → 0 ≤ x ∧ x ≤ 3)) := by decide +kernel

theorem witness_DescriptorRowSumLaw :
    ∃ t, (rowState []).EncMoves (rowState []) ∧ Memory.wf (rowState []) = true ∧
      (rowState []).enc.busy = true ∧ 4 ≤ (rowState []).enc.plane.toNat ∧
      0 = (rowState []).enc.row.toNat ∧ 0 < 200 ∧ (rowState []).enc.wp.toNat + 800 ≤ 67111 ∧
      (rowState []).enc.pending.toNat ≤ 316 ∧ (rowState []).enc.pending.toNat % 4 = 0 ∧
      step (rowState []) = .next t := by
  refine ⟨_, .inl ⟨rfl, rfl, rfl⟩, ?_, ?_, ?_, ?_, ?_, ?_, ?_, ?_, rfl⟩ <;> decide +kernel

theorem witness_TransparentCanvasEncodes :
    ∃ u, Memory.wf idle = true ∧ idle.agenda = [] ∧ idle.dec.busy = false ∧ idle.enc.busy = false ∧
      idle.enc.palv = false ∧ idle.enc.gw.toNat ≤ 320 ∧ idle.enc.gh.toNat ≤ 200 ∧
      (∀ pos < 64000, idle.enc.transparent idle.par.sentinel pos = true) ∧
      exec .runEnc idle = .next u := by
  refine ⟨_, by decide +kernel, rfl, rfl, rfl, rfl, by decide +kernel, by decide +kernel, ?_, rfl⟩
  intro pos _
  exact Bool.or_eq_true_iff.mpr (.inr (beq_self_eq_true _))

theorem witness_FinishStepsSetDone :
    (decodeDone.DecMoves decodeDone ∧ decodeDone.dec.busy = true ∧ 4 ≤ decodeDone.dec.plane.toNat) ∧
      encodeDone.EncMoves encodeDone ∧ encodeDone.enc.busy = true ∧ 4 ≤ encodeDone.enc.plane.toNat ∧
      200 ≤ encodeDone.enc.row.toNat ∧
      encodeDone.enc.base.toNat + encodeDone.enc.csLen.toNat + 800 ≤ 67111 := by
  refine ⟨⟨.inl ⟨rfl, rfl, rfl⟩, ?_⟩, .inl ⟨rfl, rfl, rfl⟩, ?_⟩ <;> decide +kernel

/-- A busy DEC, the host reading its STATUS or writing its CTRL. -/
theorem witness_BusyEngineIsClosedToHost (a : HostAccess)
    (h : a = .readReg .dec 2 ∨ a = .writeReg .dec 1 3) :
    ({ decodeDone with agenda := [.host a] } : State).agenda = .host a :: [] ∧
      (({ decodeDone with agenda := [.host a] } : State).regs a.engine).busy = true := by
  obtain rfl | rfl := h <;> decide +kernel

/-- Every register number, and one beyond the table. -/
theorem witness_HostReadsRegisterFields (e : Engine) (n : Nat) :
    ({ idle with agenda := [.host (.readReg e n)] } : State).agenda = .host (.readReg e n) :: [] ∧
      (({ idle with agenda := [.host (.readReg e n)] } : State).regs e).busy = false :=
  ⟨rfl, by cases e <;> rfl⟩

/-- Every register number from 1 on. -/
theorem witness_HostWritesRegisterFields (e : Engine) (n : Nat) (v : Word32) :
    ({ idle with agenda := [.host (.writeReg e (n + 1) v)] } : State).agenda
        = .host (.writeReg e (n + 1) v) :: [] ∧
      (({ idle with agenda := [.host (.writeReg e (n + 1) v)] } : State).regs e).busy = false ∧
      1 ≤ n + 1 :=
  ⟨rfl, by cases e <;> rfl, Nat.le_add_left 1 n⟩

/-- A write of any value to any address of any space of an idle machine. -/
theorem witness_HostAccessesSpaces_write (space : Space) (a : Nat) (v : Word32) (s : State)
    (hs : s = { idle with agenda := [.host (.write space a v)] }) :
    Memory.wf s = true ∧ s.agenda = .host (.write space a v) :: [] ∧
      (s.regs space.engine).busy = false := by
  subst hs
  exact ⟨rfl, rfl, by cases space.engine <;> rfl⟩

/-- A read of any address of any space of an idle machine. -/
theorem witness_HostAccessesSpaces_read (space : Space) (a : Nat) (s : State)
    (hs : s = { idle with agenda := [.host (.read space a)] }) :
    s.agenda = .host (.read space a) :: [] ∧ (s.regs space.engine).busy = false := by
  subst hs
  exact ⟨rfl, by cases space.engine <;> rfl⟩

/-- The last position of an 8 by 2 crop window, and the ones after it in its row and below it. -/
theorem witness_HostAccessesSpaces_window (d : Decoder)
    (hd : d = { idle.dec with aw := 8, ah := 2 }) :
    (327 < 64000 ∧ 327 % 320 < d.aw.toNat ∧ 327 / 320 < d.ah.toNat) ∧
      (328 < 64000 ∧ d.aw.toNat ≤ 328 % 320) ∧ (640 < 64000 ∧ d.ah.toNat ≤ 640 / 320) := by
  subst hd
  decide +kernel

theorem witness_ResetEventValues :
    ({ decodeDone with agenda := [.reset] } : State).agenda = .reset :: [] := rfl

theorem witness_EnginesShareNothing :
    (∃ t, exec (.clear .dec) idle = .next t ∧ engineOf (.clear .dec) = .dec) ∧
      ∃ t, exec .runEnc idle = .next t ∧ engineOf .runEnc = .enc :=
  ⟨⟨_, rfl, rfl⟩, _, rfl, rfl⟩

/-! The invariants: a DEC inside a decode, after its map has recorded something, and an ENC inside its
walk. -/

/-- A DEC in plane 1 of a decode, past the EOP word of plane 0. -/
def decodingMapped : State :=
  { decoding 1 5 [0, 0, 0x02, 0x80, 0x05, 0, 0, 0, 0] with
    dec := { (decoding 1 5 [0, 0, 0x02, 0x80, 0x05, 0, 0, 0, 0]).dec with
      sp := 10, cim := Table.set idle.dec.cim 1 { valid := true, colour := 0x0400F8 } } }

/-- An ENC before the first position of its walk. -/
def encodingStart : State := encoding [(0, 0x102030)] 4 1 0 0 8

theorem decodingMapped_inv : decodingMapped.Inv where
  memory := by decide +kernel
  status := by unfold State.StatusOk EngineRegs.StatusOk; decide +kernel
  region := by unfold Decoder.RegionOk; decide +kernel
  cursor := by unfold Decoder.CursorOk; decide +kernel
  map := by unfold Decoder.MapOk; decide +kernel
  walk := by unfold Encoder.WalkOk; decide +kernel

theorem encodingStart_inv : encodingStart.Inv where
  memory := by decide +kernel
  status := by unfold State.StatusOk EngineRegs.StatusOk; decide +kernel
  region := by unfold Decoder.RegionOk; decide +kernel
  cursor := by unfold Decoder.CursorOk; decide +kernel
  map := by unfold Decoder.MapOk; decide +kernel
  walk := by unfold Encoder.WalkOk; decide +kernel

theorem witness_StepKeepsMemoryCanonical :
    Memory.wf decodingMapped = true ∧ ∃ t, step decodingMapped = .next t :=
  ⟨decodingMapped_inv.memory, _, rfl⟩

theorem witness_StepKeepsStatusProtocol :
    decodingMapped.StatusOk ∧ ∃ t, step decodingMapped = .next t :=
  ⟨decodingMapped_inv.status, _, rfl⟩

theorem witness_StepKeepsDecoderBounds :
    decodingMapped.dec.RegionOk ∧ decodingMapped.dec.CursorOk ∧ ∃ t, step decodingMapped = .next t :=
  ⟨decodingMapped_inv.region, decodingMapped_inv.cursor, _, rfl⟩

theorem witness_StepKeepsMapTrueToPalette :
    decodingMapped.dec.MapOk ∧ ∃ t, step decodingMapped = .next t :=
  ⟨decodingMapped_inv.map, _, rfl⟩

theorem witness_StepKeepsEncoderBounds :
    encodingStart.enc.WalkOk ∧ ∃ o, step encodingStart = o ∧ shown o (fun _ => ()) = some () :=
  ⟨encodingStart_inv.walk, _, rfl, by decide +kernel⟩

theorem witness_InvariantStatesNeverStop : decodingMapped.Inv ∧ encodingStart.Inv :=
  ⟨decodingMapped_inv, encodingStart_inv⟩

theorem witness_DecodeEnds :
    decodingMapped.Inv ∧ decodingMapped.agenda = [] ∧ decodingMapped.dec.busy = true :=
  ⟨decodingMapped_inv, rfl, rfl⟩

theorem witness_EncodeEnds :
    encodingStart.Inv ∧ encodingStart.agenda = [] ∧ encodingStart.dec.busy = false ∧
      encodingStart.enc.busy = true :=
  ⟨encodingStart_inv, rfl, rfl, rfl⟩

end Sys2Proof.Tests
end

section
/-! PROOF. What one step can do, said once: the effect of a host command, the effect of a stream command, and
every transition of the machine. An invariant is a case split over these. -/

namespace Sys2Proof.Machine

/-- `r'` shows the host the same `STATUS`, `CAUSE` and `EPC` as `r`. -/
structure EngineRegs.SameStatus (r r' : EngineRegs) : Prop where
  busy  : r'.busy = r.busy
  done  : r'.done = r.done
  err   : r'.err = r.err
  cause : r'.cause = r.cause
  epc   : r'.epc = r.epc

/-! ## Host commands -/

/-- The effect of a host command of engine `e`. -/
inductive HostEffect (s : State) : Engine → State → Prop
  | unchanged (e : Engine) : HostEffect s e s
  | acknowledged {e : Engine} (hidle : (s.regs e).busy = false) : HostEffect s e (s.acknowledge e)
  | table {e : Engine} (r : EngineRegs) (hidle : (s.regs e).busy = false)
      (hstatus : (s.regs e).startTable.SameStatus r)
      (haux : Cells.wf unlistedByte Config.auxCap (s.regs e).aux = true →
        Cells.wf unlistedByte Config.auxCap r.aux = true) :
      HostEffect s e (s.setRegs e r.finishTable)
  | tableFaulted {e : Engine} (c : Cause) (hidle : (s.regs e).busy = false) :
      HostEffect s e ((s.setRegs e (s.regs e).startTable).tableFault e c)
  | runDec (d : Decoder) (hidle : s.dec.busy = false) (hd : s.dec.setup s.par.patchTable = .ok d) :
      HostEffect s .dec { s with dec := d }
  | runDecFaulted (c : Cause) (epc : Nat) : HostEffect s .dec (s.faultEntry .dec c epc).spoilDec
  | runEnc (d : Encoder) (hidle : s.enc.busy = false) (hd : s.enc.setup = .ok d) :
      HostEffect s .enc { s with enc := d }
  | runEncFaulted (c : Cause) (epc : Nat) : HostEffect s .enc (s.faultEntry .enc c epc).spoilEnc

/-- What every table command's body leaves alone: the status registers, and the canonical form of AUX. -/
def TableBody (body : EngineRegs → Except Cause EngineRegs) : Prop :=
  ∀ r r', body r = .ok r' → r.SameStatus r' ∧
    (Cells.wf unlistedByte Config.auxCap r.aux = true → Cells.wf unlistedByte Config.auxCap r'.aux = true)

/-- A body that only computes: by default it sets tables, operands or control bits and keeps AUX. -/
theorem TableBody.ok {f : EngineRegs → EngineRegs}
    (hstatus : ∀ r : EngineRegs, r.SameStatus (f r) := by exact fun _ => ⟨rfl, rfl, rfl, rfl, rfl⟩)
    (haux : ∀ r : EngineRegs, Cells.wf unlistedByte Config.auxCap r.aux = true →
      Cells.wf unlistedByte Config.auxCap (f r).aux = true := by exact fun _ h => h) :
    TableBody fun r => .ok (f r) := by
  intro r r' h
  cases h
  exact ⟨hstatus r, haux r⟩

/-- A check in front of a body (R193: a body checks before it changes anything). -/
theorem TableBody.check {body : EngineRegs → Except Cause EngineRegs} {p : EngineRegs → Prop}
    [DecidablePred p] {c : Cause} (h : TableBody body) :
    TableBody fun r => if p r then .error c else body r := by
  intro r r' hr
  by_cases hp : p r
  · simp [hp] at hr
  · exact h r r' (by simpa [hp] using hr)

theorem hostEffect_of_tableCommand {s t : State} {e : Engine}
    {body : EngineRegs → Except Cause EngineRegs} (h : s.tableCommand e body = .next t)
    (hbody : TableBody body) : HostEffect s e t := by
  rcases s.tableCommand_cases e body with ⟨-, ho⟩ | ⟨hidle, r, hr, ho⟩ | ⟨hidle, c, -, ho⟩ <;>
    obtain rfl : _ = t := Host.Outcome.next.inj (ho.symm.trans h)
  · exact .unchanged e
  · obtain ⟨hstatus, haux⟩ := hbody _ _ hr
    exact .table r hidle hstatus haux
  · exact .tableFaulted c hidle

/-- A command that waits for an idle engine is turned away, or the engine is idle and it runs. -/
theorem State.whenIdle_next {s t : State} {e : Engine} {k : Host.Outcome State Fault Refusal}
    (h : s.whenIdle e k = .next t) : t = s ∨ ((s.regs e).busy = false ∧ k = .next t) := by
  cases hb : (s.regs e).busy with
  | true =>
    rw [State.whenIdle_busy hb] at h
    exact .inl (Host.Outcome.next.inj h).symm
  | false =>
    rw [State.whenIdle_idle hb] at h
    exact .inr ⟨rfl, h⟩

theorem hostEffect_clear {e : Engine} {s t : State} (h : execClear e s = .next t) :
    HostEffect s e t := by
  obtain rfl | ⟨hidle, h⟩ := State.whenIdle_next h
  · exact .unchanged e
  · cases h
    exact .acknowledged hidle

theorem hostEffect_runDec {s t : State} (h : execRunDec s = .next t) : HostEffect s .dec t := by
  obtain rfl | ⟨hidle, h⟩ := State.whenIdle_next h
  · exact .unchanged .dec
  · obtain ⟨d, hd, rfl⟩ | ⟨c, epc, -, rfl⟩ := State.afterDec_next h
    · exact .runDec d hidle hd
    · exact .runDecFaulted c epc

theorem hostEffect_runEnc {s t : State} (h : execRunEnc s = .next t) : HostEffect s .enc t := by
  obtain rfl | ⟨hidle, h⟩ := State.whenIdle_next h
  · exact .unchanged .enc
  · obtain ⟨d, hd, rfl⟩ | ⟨c, epc, -, rfl⟩ := State.afterEnc_next h
    · exact .runEnc d hidle hd
    · exact .runEncFaulted c epc

/-- The commands of the stream (30_encoding.md R104); every other instruction is a host command. -/
def onStream : Instr → Bool
  | .eop _ | .skip _ | .repeatRun _ | .copyRun _ => true
  | _ => false

theorem exec_host {i : Instr} {s t : State} (hi : onStream i = false) (h : exec i s = .next t) :
    HostEffect s (engineOf i) t := by
  unfold exec at h
  cases i with
  | eop | skip | repeatRun | copyRun => cases hi
  | nop e => cases h; exact .unchanged e
  | runDec => exact hostEffect_runDec h
  | runEnc => exact hostEffect_runEnc h
  | clear e => exact hostEffect_clear h
  | palGet e => exact hostEffect_of_tableCommand h (.check .ok)
  | palSet e => exact hostEffect_of_tableCommand h (.check .ok)
  | palLoadFlat e => exact hostEffect_of_tableCommand h (.check (.check .ok))
  | palLoadList e => exact hostEffect_of_tableCommand h (.check .ok)
  | palStoreFlat e =>
    refine hostEffect_of_tableCommand h (.ok (haux := fun r ha => ?_))
    dsimp only
    exact wf_storePalette r.xpal ha
  | palPatch e => exact hostEffect_of_tableCommand h .ok
  | palClear e => exact hostEffect_of_tableCommand h .ok
  | cimStore e =>
    have hlength : 0 + allIndices.length ≤ 256 := by simp [allIndices]
    refine hostEffect_of_tableCommand h (.ok (haux := fun r ha => ?_))
    exact wf_storeRecords r.cim allIndices 0 r.aux hlength ha
  | cimLoad e => exact hostEffect_of_tableCommand h (.check (.check .ok))
  | cimClear e => exact hostEffect_of_tableCommand h .ok

/-! ## Stream commands -/

/-- `d` after `k` payload bytes taken from the stream and `n` positions passed. -/
def Decoder.advanced (d : Decoder) (k n : Nat) (idx : Byte) (canvas : PixelSpace)
    (cim : Vector CimEntry 256) : Decoder :=
  { d with
    sp := d.sp + BitVec.ofNat 17 k
    cur := d.cur + 4 * BitVec.ofNat 32 n
    idx := idx
    canvas := canvas
    cim := cim }

theorem Decoder.advanced_zero (d : Decoder) : d.advanced 0 0 d.idx d.canvas d.cim = d := by
  simp [Decoder.advanced]

theorem Decoder.advanced_advanced (d : Decoder) (k k' n n' : Nat) (i i' : Byte) (v v' : PixelSpace)
    (m m' : Vector CimEntry 256) :
    (d.advanced k n i v m).advanced k' n' i' v' m' = d.advanced (k + k') (n + n') i' v' m' := by
  simp [Decoder.advanced, BitVec.ofNat_add, BitVec.mul_add, BitVec.add_assoc]

/-- `SP` does not wrap while the bytes taken lie in the region. -/
theorem Decoder.advanced_sp_toNat {d : Decoder} {k : Nat} (h : d.sp.toNat + k ≤ d.csend.toNat) (n : Nat)
    (i : Byte) (v : PixelSpace) (m : Vector CimEntry 256) :
    (d.advanced k n i v m).sp.toNat = d.sp.toNat + k := by
  simp only [Decoder.advanced, BitVec.toNat_add, BitVec.toNat_ofNat]
  omega

/-- One index byte read into `IDX`. -/
theorem Decoder.readIndex_ok {d d' : Decoder} {pc0 : Nat} (h : d.readIndex pc0 = .ok d') :
    d.sp.toNat + 1 ≤ d.csend.toNat ∧ ∃ i, d' = d.advanced 1 0 i d.canvas d.cim := by
  rcases d.readIndex_cases pc0 with ⟨-, ho⟩ | ⟨-, -, ho⟩ | ⟨hsp, -, ho⟩ <;> rw [ho] at h <;> cases h
  exact ⟨hsp, memRead8 d.din d.sp.toNat, by simp [Decoder.advanced]⟩

/-- One position written. -/
theorem Decoder.stamp_ok {d d' : Decoder} {sent : Colour} {pc0 : Nat} {i : Byte}
    (h : d.stamp sent pc0 i = .ok d') : ∃ canvas cim, d' = d.advanced 0 1 d.idx canvas cim := by
  rcases d.stamp_cases sent pc0 i with ⟨-, ho⟩ | ⟨-, ho⟩ <;> rw [ho] at h <;> cases h
  exact ⟨Cells.write sent d.canvas d.cur.toNat (Table.get d.apal i),
    Table.set d.cim i { valid := true, colour := Table.get d.apal i }, by simp [Decoder.advanced]⟩

/-- A REPEAT that ends writes its count of positions and takes no more of the stream. -/
theorem Decoder.repeatLoop_ok {sent : Colour} {pc0 : Nat} {i : Byte} (n : Nat) {d d' : Decoder}
    (h : Decoder.repeatLoop sent pc0 i n d = .ok d') :
    ∃ canvas cim, d' = d.advanced 0 n d.idx canvas cim := by
  induction n generalizing d with
  | zero => cases h; exact ⟨d'.canvas, d'.cim, d'.advanced_zero.symm⟩
  | succ n ih =>
    rw [Decoder.repeatLoop] at h
    split at h
    · next hs =>
      obtain ⟨_, _, rfl⟩ := Decoder.stamp_ok hs
      obtain ⟨canvas, cim, rfl⟩ := ih h
      exact ⟨canvas, cim, by rw [Decoder.advanced_advanced, Nat.add_comm n]; rfl⟩
    · cases h

/-- A COPY that ends takes one byte of the region for each position it writes. -/
theorem Decoder.copyLoop_ok {sent : Colour} {pc0 : Nat} (n : Nat) {d d' : Decoder}
    (h : Decoder.copyLoop sent pc0 n d = .ok d') :
    (n = 0 ∨ d.sp.toNat + n ≤ d.csend.toNat) ∧ ∃ i canvas cim, d' = d.advanced n n i canvas cim := by
  induction n generalizing d with
  | zero => cases h; exact ⟨.inl rfl, d'.idx, d'.canvas, d'.cim, d'.advanced_zero.symm⟩
  | succ n ih =>
    rw [Decoder.copyLoop] at h
    split at h
    case h_2 => cases h
    next hr =>
    split at h
    case h_2 => cases h
    next hs =>
    obtain ⟨hroom, i, rfl⟩ := Decoder.readIndex_ok hr
    obtain ⟨_, _, rfl⟩ := Decoder.stamp_ok hs
    rw [Decoder.advanced_advanced] at h
    obtain ⟨hroom', i', canvas, cim, rfl⟩ := ih h
    rw [Decoder.advanced_sp_toNat hroom] at hroom'
    refine ⟨.inr ?_, i', canvas, cim, by rw [Decoder.advanced_advanced, Nat.add_comm n]⟩
    rcases hroom' with rfl | hroom'
    · exact hroom
    · rw [Nat.add_comm n, ← Nat.add_assoc]
      exact hroom'

/-- The effect of stream command `i` in the state after the fetch of its word. -/
inductive StreamEffect (i : Instr) (s : State) : State → Prop
  | endPlane : StreamEffect i s { s with dec := s.dec.endPlane }
  | advanced (k n : Nat) (idx : Byte) (canvas : PixelSpace) (cim : Vector CimEntry 256)
      (hroom : k = 0 ∨ s.dec.sp.toNat + k ≤ s.dec.csend.toNat)
      (hn : i.wellFormed = true → n ≤ Config.countMax) :
      StreamEffect i s { s with dec := s.dec.advanced k n idx canvas cim }
  | faulted (c : Cause) (epc : Nat) : StreamEffect i s (s.faultEntry .dec c epc).spoilDec

theorem streamEffect_skip {n : Nat} {s t : State} (h : execSkip n s = .next t) :
    StreamEffect (.skip n) s t := by
  cases h
  have hskip : s.dec.skipPositions n = s.dec.advanced 0 n s.dec.idx s.dec.canvas s.dec.cim := by
    simp [Decoder.skipPositions, Decoder.advanced]
  rw [hskip]
  exact .advanced 0 n _ _ _ (.inl rfl) of_decide_eq_true

theorem streamEffect_repeat {n : Nat} {s t : State} (h : execRepeat n s = .next t) :
    StreamEffect (.repeatRun n) s t := by
  obtain ⟨d, hd, rfl⟩ | ⟨c, epc, -, rfl⟩ := State.afterDec_next h
  · split at hd
    · next hr =>
      obtain ⟨hroom, i, rfl⟩ := Decoder.readIndex_ok hr
      obtain ⟨canvas, cim, rfl⟩ := Decoder.repeatLoop_ok n hd
      rw [Decoder.advanced_advanced, Nat.zero_add]
      exact .advanced 1 n _ canvas cim (.inr hroom) of_decide_eq_true
    · cases hd
  · exact .faulted c epc

theorem streamEffect_copy {n : Nat} {s t : State} (h : execCopy n s = .next t) :
    StreamEffect (.copyRun n) s t := by
  obtain ⟨d, hd, rfl⟩ | ⟨c, epc, -, rfl⟩ := State.afterDec_next h
  · obtain ⟨hroom, i, canvas, cim, rfl⟩ := Decoder.copyLoop_ok n hd
    exact .advanced n n i canvas cim hroom of_decide_eq_true
  · exact .faulted c epc

theorem exec_stream {i : Instr} {s t : State} (hi : onStream i = true) (h : exec i s = .next t) :
    StreamEffect i s t := by
  cases i with
  | eop n => cases h; exact .endPlane
  | skip n => exact streamEffect_skip h
  | repeatRun n => exact streamEffect_repeat h
  | copyRun n => exact streamEffect_copy h
  | _ => cases hi

/-! ## The transitions of the machine -/

theorem onStream_of_decodeCode {e : Engine} {c : Byte} {i : Instr} (h : decodeCode e c = .ok i) :
    onStream i = false ∧ engineOf i = e := by
  unfold decodeCode at h
  split at h
  case h_2 => cases e <;> cases h <;> exact ⟨rfl, rfl⟩
  all_goals cases h
  all_goals exact ⟨rfl, rfl⟩

theorem onStream_decodeWord (w : Word16) : onStream (decodeWord w) = true := by
  unfold decodeWord
  dsimp only
  split <;> rfl

theorem wellFormed_decodeWord (w : Word16) : (decodeWord w).wellFormed = true := by
  have hcount : (wordCount w).toNat ≤ Config.countMax := Nat.le_of_lt_succ (wordCount w).isLt
  unfold decodeWord
  dsimp only
  split <;> exact decide_eq_true hcount

/-- Everything one step can do to `s`, the state whose agenda has moved on already. -/
inductive Transition (s : State) : State → Prop
  | unchanged : Transition s s
  | looked (v : Word32) (n : Nat) : Transition s { s with rdata := v, free := n }
  | writeReg (e : Engine) (n : Nat) (v : Word32) : Transition s (s.hostWriteReg e n v)
  | write (space : Space) (a : Nat) (v : Word32) : Transition s (s.hostWrite space a v)
  | reset : Transition s s.resetEvent
  | command {e : Engine} {t : State} (h : HostEffect s e t) : Transition s t
  | reserved {e : Engine} (hidle : (s.regs e).busy = false) :
      Transition s (s.faultEntry e .illegalCommand 0)
  | underrun : Transition s (s.faultEntry .dec .streamUnderrun s.dec.sp.toNat).spoilDec
  | stream {i : Instr} {d : Decoder} {t : State} (hbusy : s.dec.busy = true)
      (hplane : s.dec.plane.toNat < Config.planes) (hfetch : s.dec.fetchWord = .ok d)
      (hwf : i.wellFormed = true) (h : StreamEffect i { s with dec := d } t) : Transition s t
  | decFinish (hbusy : s.dec.busy = true) (hplane : Config.planes ≤ s.dec.plane.toNat) :
      Transition s { s with dec := s.dec.finish }
  | encode (d : Encoder) (hbusy : s.enc.busy = true) (hd : s.enc.step s.par = .ok d) :
      Transition s { s with enc := d }
  | encodeFaulted (c : Cause) (epc : Nat) : Transition s (s.faultEntry .enc c epc).spoilEnc

/-- What a fetched step answers. -/
def Fetched.outcome : Fetched → Host.Outcome State Fault Refusal
  | .run i s => exec i s
  | .answer o => o

theorem step_eq_outcome (s : State) : step s = s.fetch.outcome := by
  unfold step
  cases s.fetch <;> rfl

theorem transition_fetchDec {s t : State} (h : s.fetchDec.outcome = .next t) : Transition s t := by
  unfold State.fetchDec at h
  split at h
  case isFalse => cases h; exact .unchanged
  next hbusy =>
  split at h
  case isFalse hplane =>
    cases h
    exact .decFinish hbusy (Nat.le_of_not_lt hplane)
  next hplane =>
  rcases s.dec.fetchWord_cases with ⟨-, hf⟩ | ⟨-, -, hf⟩ | ⟨-, -, hf⟩ <;> rw [hf] at h
  · cases h; exact .underrun
  · cases h
  · exact .stream hbusy hplane hf (wellFormed_decodeWord _) (exec_stream (onStream_decodeWord _) h)

theorem transition_fetchEnc {s t : State} (h : s.fetchEnc.outcome = .next t) : Transition s t := by
  unfold State.fetchEnc at h
  split at h
  · next hbusy =>
    obtain ⟨d, hd, rfl⟩ | ⟨c, epc, -, rfl⟩ := State.afterEnc_next h
    · exact .encode d hbusy hd
    · exact .encodeFaulted c epc
  · cases h; exact .unchanged

theorem transition_fetchEngine {s t : State} {e : Engine}
    (h : (s.fetchEngine e).outcome = .next t) : Transition s t := by
  cases e with
  | dec => exact transition_fetchDec h
  | enc => exact transition_fetchEnc h

theorem transition_fetchCommand {s t : State} {e : Engine} {v : Word32}
    (h : (s.fetchCommand e v).outcome = .next t) : Transition s t := by
  unfold State.fetchCommand at h
  cases hc : decodeCode e (v.extractLsb' 0 8) with
  | ok i =>
    obtain ⟨hi, -⟩ := onStream_of_decodeCode hc
    simp only [decode, hc] at h
    exact .command (exec_host hi h)
  | error err =>
    simp only [decode, hc] at h
    obtain rfl | ⟨hidle, h⟩ := State.whenIdle_next h
    · exact .unchanged
    · cases h
      exact .reserved hidle

/-- A read changes the latch and the counter of free values alone (log 10). -/
theorem transition_hostReadReg (s : State) (e : Engine) (n : Nat) : Transition s (s.hostReadReg e n) := by
  unfold State.hostReadReg
  split
  · exact .looked _ _
  · exact .looked _ s.free

theorem transition_hostRead (s : State) (space : Space) (a : Nat) :
    Transition s (s.hostRead space a) := by
  unfold State.hostRead
  split
  · exact .looked _ s.free
  · exact .looked _ _

theorem transition_fetchHost {s t : State} {a : HostAccess}
    (h : (s.fetchHost a).outcome = .next t) : Transition s t := by
  match a, h with
  | .readReg e n, h => cases h; exact transition_hostReadReg s e n
  | .writeReg e 0 v, h => exact transition_fetchCommand h
  | .writeReg e (n + 1) v, h => cases h; exact .writeReg e (n + 1) v
  | .read space a, h => cases h; exact transition_hostRead s space a
  | .write space a v, h => cases h; exact .write space a v

/-- Every step moves the agenda on and takes one transition. -/
theorem step_transition {s t : State} (h : step s = .next t) :
    ∃ turns, Transition { s with agenda := turns } t := by
  rw [step_eq_outcome] at h
  unfold State.fetch at h
  split at h
  · exact ⟨_, transition_fetchHost h⟩
  · exact ⟨_, transition_fetchEngine h⟩
  · next rest _ =>
    split at h
    · exact ⟨s.agenda, transition_fetchEngine h⟩
    · cases h; exact ⟨rest, .unchanged⟩
  · cases h; exact ⟨_, .reset⟩
  · split at h
    · exact ⟨s.agenda, transition_fetchDec h⟩
    · exact ⟨s.agenda, transition_fetchEnc h⟩

end Sys2Proof.Machine
end

section
/-! PROOF. What the parts of a RUN leave when they end without a fault: the set-up of a decode
(41_decoder_sequence.md R151 to R159) and one step of an encode (43_encoder_runs.md,
44_encoder_visibility.md). -/

namespace Sys2Proof.Machine

theorem except_bind_ok {ε α β : Type} {x : Except ε α} {f : α → Except ε β} {b : β}
    (h : (x >>= f) = .ok b) : ∃ a, x = .ok a ∧ f a = .ok b := by
  cases x with
  | error e => cases h
  | ok a => exact ⟨a, rfl, h⟩

/-! ## The set-up of a decode -/

theorem Decoder.readHeader_ok {d d' : Decoder} (h : d.readHeader = .ok d') :
    ∃ hasPal csLen aw ah, d' = { d with hasPal := hasPal, csLen := csLen, aw := aw, ah := ah } := by
  unfold Decoder.readHeader at h
  split at h <;> cases h
  exact ⟨_, _, _, _, rfl⟩

/-- The bounds of R153 on the header fields. -/
def Decoder.HeaderOk (d : Decoder) : Prop :=
  d.hasPal.toNat ≤ 1 ∧ d.aw.toNat ≤ Config.virtualWidth ∧ d.ah.toNat ≤ Config.virtualHeight

theorem Decoder.checkHeader_ok {d d' : Decoder} (h : d.checkHeader = .ok d') :
    d' = d ∧ d.HeaderOk := by
  unfold Decoder.checkHeader at h
  split at h
  · cases h
  split at h
  · cases h
  split at h <;> cases h
  exact ⟨rfl, by omega, by omega, by omega⟩

theorem Decoder.ingestPalette_ok {d d' : Decoder} (h : d.ingestPalette = .ok d') :
    ∃ apal, d' = { d with apal := apal } := by
  unfold Decoder.ingestPalette at h
  split at h
  · cases h
  split at h <;> cases h
  exact ⟨_, rfl⟩

theorem Decoder.selectPalette_ok {d d' : Decoder} (h : d.selectPalette = .ok d') :
    ∃ apal, d' = { d with apal := apal } := by
  unfold Decoder.selectPalette at h
  split at h
  · split at h <;> cases h
    exact ⟨_, rfl⟩
  · exact Decoder.ingestPalette_ok h

theorem Decoder.patchActive_eq (table : Vector DacColour 58) (d : Decoder) :
    ∃ apal, d.patchActive table = { d with apal := apal } := by
  unfold Decoder.patchActive
  split
  · exact ⟨_, rfl⟩
  · exact ⟨d.apal, rfl⟩

theorem Decoder.boundRegion_ok {d d' : Decoder} (h : d.boundRegion = .ok d') :
    d.csStart + d.csLen.toNat ≤ d.inLen.toNat ∧
      d' = { d with
        csend := BitVec.ofNat 17 (d.csStart + d.csLen.toNat), sp := BitVec.ofNat 17 d.csStart } := by
  unfold Decoder.boundRegion at h
  dsimp only at h
  split at h <;> cases h
  exact ⟨by omega, rfl⟩

/-- What the set-up of a decode of `d` leaves: a clean status, the header within its bounds, the region
inside the file, `SP` at its start and the cursor at the first position of the first plane. -/
structure Decoder.SetUp (d d' : Decoder) : Prop where
  status : d.toEngineRegs.startRun.SameStatus d'.toEngineRegs
  inLen  : d'.inLen = d.inLen
  header : d'.HeaderOk
  room   : d'.csStart + d'.csLen.toNat ≤ d'.inLen.toNat
  sp     : d'.sp = BitVec.ofNat 17 d'.csStart
  csend  : d'.csend = BitVec.ofNat 17 (d'.csStart + d'.csLen.toNat)
  plane  : d'.plane = 0
  cur    : d'.cur = 0

theorem Decoder.setup_ok {table : Vector DacColour 58} {d d' : Decoder} (h : d.setup table = .ok d') :
    d.SetUp d' := by
  unfold Decoder.setup at h
  obtain ⟨d1, h1, h⟩ := except_bind_ok h
  obtain ⟨d2, h2, h⟩ := except_bind_ok h
  obtain ⟨d3, h3, h⟩ := except_bind_ok h
  obtain ⟨d4, h4, h⟩ := except_bind_ok h
  cases h
  obtain ⟨hasPal, csLen, aw, ah, rfl⟩ := Decoder.readHeader_ok h1
  obtain ⟨rfl, hheader⟩ := Decoder.checkHeader_ok h2
  obtain ⟨apal, rfl⟩ := Decoder.selectPalette_ok h3
  obtain ⟨apal', hpatch⟩ := Decoder.patchActive_eq table _
  rw [hpatch] at h4
  obtain ⟨hroom, rfl⟩ := Decoder.boundRegion_ok h4
  exact ⟨⟨rfl, rfl, rfl, rfl, rfl⟩, rfl, hheader, hroom, rfl, rfl, rfl, rfl⟩

/-! ## The plane walk of an encode -/

/-- The stream's bytes stand from `BASE` up to `WP`, within its largest length (R215, R224). -/
def Encoder.StreamOk (e : Encoder) : Prop :=
  e.base.toNat ≤ Config.headerBytes + Config.paletteBytes ∧ e.base.toNat ≤ e.wp.toNat ∧
    e.wp.toNat ≤ e.base.toNat + Config.streamMax

/-- `POS` is a position of the current plane, or the first one after its end (R216). -/
def Encoder.PosOk (e : Encoder) : Prop :=
  e.pos.toNat < Config.canvasSize + Config.planes ∧ e.pos.toNat % Config.planes = e.plane.toNat

/-- `e'` is `e` after a part of the walk over one plane. -/
structure Encoder.Walks (e e' : Encoder) : Prop where
  frame  : ∃ n pos wp ph eout, e' = { e with n := n, pos := pos, wp := wp, ph := ph, eout := eout }
  stream : e.StreamOk → e'.StreamOk
  pos    : e.PosOk → e'.PosOk

theorem Encoder.Walks.refl (e : Encoder) : e.Walks e := ⟨⟨_, _, _, _, _, rfl⟩, id, id⟩

theorem Encoder.Walks.trans {e e1 e2 : Encoder} (h1 : e.Walks e1) (h2 : e1.Walks e2) : e.Walks e2 := by
  obtain ⟨⟨_, _, _, _, _, rfl⟩, hs1, hp1⟩ := h1
  obtain ⟨⟨_, _, _, _, _, rfl⟩, hs2, hp2⟩ := h2
  exact ⟨⟨_, _, _, _, _, rfl⟩, hs2 ∘ hs1, hp2 ∘ hp1⟩

/-- A part of the walk that moves neither `POS` nor `WP`. -/
theorem Encoder.walks_set (e : Encoder) (n : BitVec 14) (ph : BitVec 17) (eout : ByteSpace) :
    e.Walks { e with n := n, ph := ph, eout := eout } := ⟨⟨_, _, _, _, _, rfl⟩, id, id⟩

/-- Room for some bytes lets `WP` move on past them. -/
theorem Encoder.walks_wp {e : Encoder} {k : BitVec 17} (hfits : e.fits k.toNat = true) (ph : BitVec 17)
    (eout : ByteSpace) : e.Walks { e with wp := e.wp + k, ph := ph, eout := eout } := by
  have hroom : e.wp.toNat + k.toNat ≤ e.base.toNat + Config.streamMax := of_decide_eq_true hfits
  refine ⟨⟨_, _, _, _, _, rfl⟩, ?_, id⟩
  rintro ⟨hbase, hlow, hhigh⟩
  simp only [Config.headerBytes, Config.paletteBytes, Config.streamMax] at *
  have hwp : (e.wp + k).toNat = e.wp.toNat + k.toNat := by
    rw [BitVec.toNat_add]
    omega
  simp only [Encoder.StreamOk, Config.headerBytes, Config.paletteBytes, Config.streamMax, hwp]
  omega

/-- Inside the canvas `POS` moves on to the next position of the plane. -/
theorem Encoder.walks_next {e : Encoder} (hpos : e.pos.toNat < Config.canvasSize) :
    e.Walks { e with n := e.n + 1, pos := e.pos + 4 } := by
  refine ⟨⟨_, _, _, _, _, rfl⟩, id, ?_⟩
  rintro ⟨-, hmod⟩
  simp only [Config.canvasSize, Config.planes] at *
  have hnext : (e.pos + 4).toNat = e.pos.toNat + 4 := by bv_omega
  simp only [Encoder.PosOk, Config.canvasSize, Config.planes, hnext]
  omega

theorem Encoder.emit8_ok {e e' : Encoder} {v : Byte} (h : e.emit8 v = .ok e') :
    e.Walks e' ∧ e'.pos = e.pos := by
  rcases e.emit8_cases v with ⟨-, ho⟩ | ⟨-, -, ho⟩ | ⟨hfits, -, ho⟩ <;> rw [ho] at h <;> cases h
  exact ⟨Encoder.walks_wp (k := 1) hfits e.ph _, rfl⟩

theorem Encoder.emit16_ok {e e' : Encoder} {v : Word16} (h : e.emit16 v = .ok e') : e.Walks e' := by
  rcases e.emit16_cases v with ⟨-, ho⟩ | ⟨-, -, ho⟩ | ⟨hfits, -, ho⟩ <;> rw [ho] at h <;> cases h
  exact Encoder.walks_wp (k := 2) hfits e.ph _

theorem Encoder.reserve16_ok {e e' : Encoder} (h : e.reserve16 = .ok e') : e.Walks e' := by
  unfold Encoder.reserve16 at h
  split at h <;> cases h
  exact Encoder.walks_wp (k := 2) ‹_› e.wp e.eout

theorem Encoder.outWord_ok {e e' : Encoder} {a : Nat} {v : Word16} (h : e.outWord a v = .ok e') :
    ∃ eout, e' = { e with eout := eout } := by
  unfold Encoder.outWord at h
  split at h <;> cases h
  exact ⟨_, rfl⟩

theorem Encoder.skipLoop_walks (sent : Colour) (k : Nat) (e : Encoder) :
    e.Walks (Encoder.skipLoop sent k e) := by
  induction k generalizing e with
  | zero => exact .refl e
  | succ k ih =>
    rw [Encoder.skipLoop]
    split
    · next h =>
      have hpos := of_decide_eq_true (Bool.and_eq_true_iff.1 h).1
      exact (Encoder.walks_next hpos).trans (ih _)
    · exact .refl e

theorem Encoder.skipRun_ok {sent : Colour} {e e' : Encoder} (h : e.skipRun sent = .ok e') :
    e.Walks e' := by
  have hloop : e.Walks (Encoder.skipLoop sent Config.countMax { e with n := 0 }) :=
    (e.walks_set 0 e.ph e.eout).trans (Encoder.skipLoop_walks ..)
  unfold Encoder.skipRun at h
  dsimp only at h
  split at h
  · exact hloop.trans (Encoder.emit16_ok h)
  · cases h
    exact hloop

theorem Encoder.copyLoop_walks {sent : Colour} (k : Nat) {e e' : Encoder}
    (h : Encoder.copyLoop sent k e = .ok e') : e.Walks e' := by
  induction k generalizing e with
  | zero => cases h; exact .refl _
  | succ k ih =>
    rw [Encoder.copyLoop] at h
    split at h
    case isFalse => cases h; exact .refl _
    next hguard =>
    have hpos : e.pos.toNat < Config.canvasSize := of_decide_eq_true (Bool.and_eq_true_iff.1 hguard).1
    split at h
    case h_1 => cases h
    split at h
    case h_2 => cases h
    next e1 hemit =>
    obtain ⟨hwalk, hpos1⟩ := Encoder.emit8_ok hemit
    exact hwalk.trans ((Encoder.walks_next (hpos1 ▸ hpos)).trans (ih h))

theorem Encoder.copyRun_ok {sent : Colour} {e e' : Encoder} (h : e.copyRun sent = .ok e') :
    e.Walks e' := by
  unfold Encoder.copyRun at h
  split at h
  case h_2 => cases h
  next e1 hreserve =>
  split at h
  case h_2 => cases h
  next e2 hloop =>
  obtain ⟨eout, rfl⟩ := Encoder.outWord_ok h
  have hcopied : e.Walks e2 :=
    ((Encoder.reserve16_ok hreserve).trans (e1.walks_set 0 e1.ph e1.eout)).trans
      (Encoder.copyLoop_walks _ hloop)
  exact hcopied.trans (e2.walks_set e2.n e2.ph eout)

/-- What the set-up of an encode of `e` leaves: a clean status, the grid within the canvas, and the stream
empty at its base (R211 to R216). -/
structure Encoder.SetUp (e e' : Encoder) : Prop where
  status : e.toEngineRegs.startRun.SameStatus e'.toEngineRegs
  outLen : e'.outLen = 0
  grid   : e'.gw.toNat ≤ Config.virtualWidth ∧ e'.gh.toNat ≤ Config.virtualHeight
  hasPal : e'.hasPal.toNat ≤ 1
  base   : e'.base.toNat = Config.headerBytes + Config.paletteBytes * e'.hasPal.toNat
  wp     : e'.wp = e'.base
  plane  : e'.plane = 0
  pos    : e'.pos = 0

theorem Encoder.setup_ok {e e' : Encoder} (h : e.setup = .ok e') : e.SetUp e' := by
  unfold Encoder.setup at h
  split at h
  · cases h
  split at h <;> cases h
  have hgrid : e.gw.toNat ≤ Config.virtualWidth ∧ e.gh.toNat ≤ Config.virtualHeight := by omega
  have hpal : (if e.palv then 1 else 0 : BitVec 16).toNat ≤ 1 := by split <;> decide
  have hbase : (if e.palv then 776 else 8 : BitVec 17).toNat =
      Config.headerBytes + Config.paletteBytes * (if e.palv then 1 else 0 : BitVec 16).toNat := by
    split <;> rfl
  exact ⟨⟨rfl, rfl, rfl, rfl, rfl⟩, rfl, hgrid, hpal, hbase, rfl, rfl, rfl⟩

/-! ## The descriptor of an encode -/

/-- Over the columns before 320 the scan leaves `MAXC` in 1 to 320 once a column is opaque (R241). -/
theorem scanColumn_maxc (opaqueAt : Nat → Bool) (xs : List Nat) (hxs : ∀ x ∈ xs, x < Config.virtualWidth)
    (acc : Bool × Nat × Nat)
    (hacc : acc.1 = true → 1 ≤ acc.2.2 ∧ acc.2.2 ≤ Config.virtualWidth) :
    (xs.foldl (scanColumn opaqueAt) acc).1 = true →
      1 ≤ (xs.foldl (scanColumn opaqueAt) acc).2.2 ∧
        (xs.foldl (scanColumn opaqueAt) acc).2.2 ≤ Config.virtualWidth := by
  induction xs generalizing acc with
  | nil => exact hacc
  | cons x xs ih =>
    have hx := hxs x (List.mem_cons_self ..)
    refine ih (fun y hy => hxs y (List.mem_cons_of_mem _ hy)) _ ?_
    unfold scanColumn
    split
    · exact fun _ => ⟨Nat.le_add_left 1 x, hx⟩
    · exact hacc

theorem Encoder.scanRow_maxc {e : Encoder} {sent : Colour} (h : (e.scanRow sent).any = true) :
    1 ≤ (e.scanRow sent).maxc.toNat ∧ (e.scanRow sent).maxc.toNat ≤ Config.virtualWidth := by
  obtain ⟨hlow, hhigh⟩ := scanColumn_maxc _ (List.range Config.virtualWidth)
    (fun x hx => List.mem_range.1 hx) (false, e.minc.toNat, e.maxc.toNat) (by simp) h
  have hmod := Nat.mod_eq_of_lt (Nat.lt_of_le_of_lt hhigh (show Config.virtualWidth < 2 ^ 9 by decide))
  rw [Encoder.scanRow, BitVec.toNat_ofNat, hmod]
  exact ⟨hlow, hhigh⟩

/-- The hidden columns that a row carries on are a multiple of 4, and at most 316 (R246). -/
theorem Encoder.nextPending_le {e : Encoder}
    (h : e.any = true → 1 ≤ e.maxc.toNat ∧ e.maxc.toNat ≤ Config.virtualWidth) :
    e.nextPending ≤ 316 ∧ e.nextPending % 4 = 0 := by
  unfold Encoder.nextPending Encoder.rowHide
  simp only [Config.virtualWidth] at *
  split
  · next hany =>
    obtain ⟨hlow, hhigh⟩ := h hany
    omega
  · decide

/-- Everything one step of a running encoder can do when it ends without a fault. -/
inductive Encoder.StepEffect (e : Encoder) : Encoder → Prop
  | walks {e' : Encoder} (hplane : e.plane.toNat < Config.planes) (h : e.Walks e') : StepEffect e e'
  | nextPlane {e' : Encoder} (hplane : e.plane.toNat < Config.planes) (h : e.Walks e')
      (hnext : (e'.plane + 1).toNat < Config.planes) :
      StepEffect e { e' with plane := e'.plane + 1, pos := (e'.plane + 1).setWidth 17 }
  | lastPlane {e' : Encoder} (apal : Vector Colour 256) (eout : ByteSpace)
      (hplane : e.plane.toNat < Config.planes) (h : e.Walks e')
      (hlast : ¬(e'.plane + 1).toNat < Config.planes) :
      StepEffect e { e' with
        csLen := BitVec.ofNat 16 (e'.wp.toNat - e'.base.toNat)
        apal := apal
        eout := eout
        plane := e'.plane + 1
        row := 0
        pending := 0 }
  | row (any : Bool) (minc maxc : BitVec 9) (pending : Nat) (eout : ByteSpace)
      (hplane : Config.planes ≤ e.plane.toNat) (hrow : e.row.toNat < Config.virtualHeight)
      (hpending : pending ≤ 316 ∧ pending % 4 = 0) :
      StepEffect e { e with
        any := any
        minc := minc
        maxc := maxc
        eout := eout
        pending := BitVec.ofNat 9 pending
        row := e.row + 1 }
  | finish (hplane : Config.planes ≤ e.plane.toNat) : StepEffect e e.finish

theorem Encoder.embedPalette_eq (e : Encoder) (table : Vector DacColour 58) :
    ∃ apal eout, e.embedPalette table = { e with apal := apal, eout := eout } := by
  unfold Encoder.embedPalette
  split
  · exact ⟨_, _, rfl⟩
  · exact ⟨e.apal, e.eout, rfl⟩

theorem Encoder.endPlane_effect {e e' : Encoder} {table : Vector DacColour 58}
    (hplane : e.plane.toNat < Config.planes) (h : e.endPlane table = .ok e') : e.StepEffect e' := by
  unfold Encoder.endPlane at h
  split at h
  case h_2 => cases h
  next e1 hemit =>
  have hwalk := Encoder.emit16_ok hemit
  dsimp only at h
  split at h
  · cases h
    exact .nextPlane hplane hwalk ‹_›
  · cases h
    obtain ⟨apal, eout, heq⟩ := e1.writeHeader.embedPalette_eq table
    rw [heq]
    exact .lastPlane (e' := e1) apal eout hplane hwalk ‹_›

theorem Encoder.rowStep_effect {e e' : Encoder} {sent : Colour}
    (hplane : Config.planes ≤ e.plane.toNat) (hrow : e.row.toNat < Config.virtualHeight)
    (h : e.rowStep sent = .ok e') : e.StepEffect e' := by
  unfold Encoder.rowStep at h
  dsimp only at h
  split at h
  case h_2 => cases h
  next e2 hskip =>
  split at h <;> cases h
  next e3 hhide =>
  obtain ⟨eout, rfl⟩ := Encoder.outWord_ok hskip
  obtain ⟨eout', rfl⟩ := Encoder.outWord_ok hhide
  exact .row _ _ _ _ eout' hplane hrow (Encoder.nextPending_le Encoder.scanRow_maxc)

theorem Encoder.step_effect {e e' : Encoder} {par : Config.Params} (h : e.step par = .ok e') :
    e.StepEffect e' := by
  unfold Encoder.step at h
  split at h
  · next hplane =>
    split at h
    · split at h
      · exact .walks hplane (Encoder.skipRun_ok h)
      · exact .walks hplane (Encoder.copyRun_ok h)
    · exact Encoder.endPlane_effect hplane h
  · next hplane =>
    have hdone := Nat.le_of_not_lt hplane
    split at h
    · exact Encoder.rowStep_effect hdone ‹_› h
    · cases h
      exact .finish hdone

end Sys2Proof.Machine
end

section
/-! PROOF. The status protocol of both engines (10_state.md R42, R43, R44): what each operation shows in
`STATUS`, `CAUSE` and `EPC`, and that every transition keeps the protocol. -/

namespace Sys2Proof.Machine

/-! ## The registers of one engine -/

theorem EngineRegs.SameStatus.statusOk {r r' : EngineRegs} (h : r.SameStatus r') (hr : r.StatusOk) :
    r'.StatusOk := by
  obtain ⟨hbusy, hdone, herr, hcause, hepc⟩ := h
  unfold EngineRegs.StatusOk
  rwa [hbusy, hdone, herr, hcause, hepc]

/-- Without `ERR` the protocol asks for an empty `CAUSE` and `EPC`, and for no `DONE` while running. -/
theorem EngineRegs.statusOk_of_no_err {r : EngineRegs} (herr : r.err = false) (hcause : r.cause = 0)
    (hepc : r.epc = 0) (hdone : r.busy = true → r.done = false) : r.StatusOk := by
  refine ⟨fun hb => ⟨hdone hb, herr⟩, by simp [herr], fun _ => ⟨hcause, hepc⟩, by simp [herr]⟩

theorem EngineRegs.statusOk_startRun (r : EngineRegs) : r.startRun.StatusOk :=
  EngineRegs.statusOk_of_no_err rfl rfl rfl fun _ => rfl

theorem EngineRegs.statusOk_acknowledged (r : EngineRegs) : r.acknowledged.StatusOk :=
  EngineRegs.statusOk_of_no_err rfl rfl rfl fun _ => rfl

theorem EngineRegs.statusOk_reset : EngineRegs.reset.StatusOk :=
  EngineRegs.statusOk_of_no_err rfl rfl rfl fun _ => rfl

/-- The start of a table command has cleared `ERR`, so its end shows a clean status (R193). -/
theorem EngineRegs.statusOk_finishTable {r r' : EngineRegs} (h : r.startTable.SameStatus r') :
    r'.finishTable.StatusOk :=
  EngineRegs.statusOk_of_no_err h.err h.cause h.epc fun hb => by cases hb

/-- A running engine shows no `ERR`, so neither does its finish. -/
theorem EngineRegs.statusOk_finishRun {r : EngineRegs} (h : r.StatusOk) (hbusy : r.busy = true) :
    r.finishRun.StatusOk := by
  obtain ⟨hrun, -, hclean, -⟩ := h
  obtain ⟨-, herr⟩ := hrun hbusy
  obtain ⟨hcause, hepc⟩ := hclean herr
  exact EngineRegs.statusOk_of_no_err herr hcause hepc fun hb => by cases hb

/-- The codes of the causes are 1 to 10 (60_exceptions.md R260). -/
theorem Cause.code_range (c : Cause) : 1 ≤ c.code.toNat ∧ c.code.toNat ≤ 10 := by
  cases c <;> decide

theorem EngineRegs.statusOk_raised (r : EngineRegs) (c : Cause) (epc : Nat) :
    (r.raised c epc).StatusOk :=
  ⟨by simp, by simp, by simp, fun _ => c.code_range⟩

/-! ## Both engines -/

theorem State.statusOk_iff {s : State} : s.StatusOk ↔ ∀ e, (s.regs e).StatusOk :=
  ⟨fun ⟨hd, he⟩ e => by cases e <;> assumption, fun h => ⟨h .dec, h .enc⟩⟩

/-- An operation that changes the registers of engine `e` alone keeps the protocol if they keep it. -/
theorem State.statusOk_of_regs {s t : State} (e : Engine) (hs : s.StatusOk) (he : (t.regs e).StatusOk)
    (hframe : ∀ f, f ≠ e → t.regs f = s.regs f) : t.StatusOk := by
  rw [State.statusOk_iff] at hs ⊢
  intro f
  by_cases hf : f = e
  · exact hf ▸ he
  · exact hframe f hf ▸ hs f

theorem State.statusOk_setRegs {s : State} {e : Engine} {r : EngineRegs} (hs : s.StatusOk)
    (hr : r.StatusOk) : (s.setRegs e r).StatusOk :=
  State.statusOk_of_regs e hs (by simpa using hr) fun _ hf => State.regs_setRegs_ne s r hf

theorem State.statusOk_faultEntry {s : State} (hs : s.StatusOk) (e : Engine) (c : Cause) (epc : Nat) :
    (s.faultEntry e c epc).StatusOk :=
  State.statusOk_of_regs e hs (by simpa using EngineRegs.statusOk_raised _ c epc)
    fun _ hf => State.regs_faultEntry_ne s c epc hf

theorem State.statusOk_acknowledge {s : State} (hs : s.StatusOk) (e : Engine) :
    (s.acknowledge e).StatusOk :=
  State.statusOk_of_regs e hs (by simpa using EngineRegs.statusOk_acknowledged _)
    fun _ hf => State.regs_acknowledge_ne s hf

theorem State.statusOk_dec {s : State} {d : Decoder} (hs : s.StatusOk)
    (hd : d.toEngineRegs.StatusOk) : ({ s with dec := d } : State).StatusOk := ⟨hd, hs.2⟩

theorem State.statusOk_enc {s : State} {d : Encoder} (hs : s.StatusOk)
    (hd : d.toEngineRegs.StatusOk) : ({ s with enc := d } : State).StatusOk := ⟨hs.1, hd⟩

/-- What a faulted RUN leaves unspecified is not in the status registers. -/
theorem State.statusOk_spoilDec {s : State} (hs : s.StatusOk) : s.spoilDec.StatusOk :=
  ⟨EngineRegs.SameStatus.statusOk ⟨rfl, rfl, rfl, rfl, rfl⟩ hs.1, hs.2⟩

theorem State.statusOk_spoilEnc {s : State} (hs : s.StatusOk) : s.spoilEnc.StatusOk :=
  ⟨hs.1, EngineRegs.SameStatus.statusOk ⟨rfl, rfl, rfl, rfl, rfl⟩ hs.2⟩

/-! ## The accesses of the host -/

theorem EngineRegs.writeReg_sameStatus (r : EngineRegs) (n : Nat) (v : Word32) :
    r.SameStatus (r.writeReg n v) := by
  unfold EngineRegs.writeReg
  split <;> exact ⟨rfl, rfl, rfl, rfl, rfl⟩

theorem State.statusOk_hostWriteReg {s : State} (hs : s.StatusOk) (e : Engine) (n : Nat) (v : Word32) :
    (s.hostWriteReg e n v).StatusOk := by
  unfold State.hostWriteReg
  split
  · exact hs
  · unfold State.writeReg
    split
    · exact hs
    · exact hs
    · exact hs
    · exact State.statusOk_setRegs hs
        ((EngineRegs.writeReg_sameStatus _ n v).statusOk (State.statusOk_iff.1 hs e))

theorem State.statusOk_hostWrite {s : State} (hs : s.StatusOk) (space : Space) (a : Nat) (v : Word32) :
    (s.hostWrite space a v).StatusOk := by
  have same {e : Engine} {r : EngineRegs} (h : (s.regs e).SameStatus r) : (s.setRegs e r).StatusOk :=
    State.statusOk_setRegs hs (h.statusOk (State.statusOk_iff.1 hs e))
  unfold State.hostWrite
  split
  case isFalse => exact hs
  cases space with
  | din | canvas | grid | eout | apal => exact hs
  | aux | xpal | cim => exact same ⟨rfl, rfl, rfl, rfl, rfl⟩

/-! ## The commands and the transitions -/

theorem State.statusOk_hostEffect {s t : State} {e : Engine} (hs : s.StatusOk) (h : HostEffect s e t) :
    t.StatusOk := by
  cases h with
  | unchanged => exact hs
  | acknowledged hidle => exact State.statusOk_acknowledge hs e
  | table r hidle hstatus haux => exact State.statusOk_setRegs hs (EngineRegs.statusOk_finishTable hstatus)
  | tableFaulted c hidle =>
    rw [State.tableFault, State.regs_setRegs_same, State.setRegs_setRegs]
    exact State.statusOk_setRegs hs (EngineRegs.statusOk_raised _ c 0)
  | runDec d hidle hd =>
    exact State.statusOk_dec hs ((Decoder.setup_ok hd).status.statusOk (EngineRegs.statusOk_startRun _))
  | runDecFaulted c epc => exact State.statusOk_spoilDec (State.statusOk_faultEntry hs .dec c epc)
  | runEnc d hidle hd =>
    exact State.statusOk_enc hs ((Encoder.setup_ok hd).status.statusOk (EngineRegs.statusOk_startRun _))
  | runEncFaulted c epc => exact State.statusOk_spoilEnc (State.statusOk_faultEntry hs .enc c epc)

theorem State.statusOk_streamEffect {s t : State} {i : Instr} (hs : s.StatusOk)
    (h : StreamEffect i s t) : t.StatusOk := by
  cases h with
  | endPlane => exact hs
  | advanced k n idx canvas cim hroom hn =>
    exact State.statusOk_dec hs (EngineRegs.SameStatus.statusOk ⟨rfl, rfl, rfl, rfl, rfl⟩ hs.1)
  | faulted c epc => exact State.statusOk_spoilDec (State.statusOk_faultEntry hs .dec c epc)

/-- A fetch changes the working registers `W`, `SP` and `CNT` alone. -/
theorem Decoder.fetchWord_regs {d d' : Decoder} (h : d.fetchWord = .ok d') :
    d'.toEngineRegs = d.toEngineRegs := by
  rcases d.fetchWord_cases with ⟨-, ho⟩ | ⟨-, -, ho⟩ | ⟨-, -, ho⟩ <;> rw [ho] at h <;> cases h
  rfl

theorem Encoder.StepEffect.statusOk {e e' : Encoder} (he : e.toEngineRegs.StatusOk)
    (hbusy : e.busy = true) (h : e.StepEffect e') : e'.toEngineRegs.StatusOk := by
  have same (r : EngineRegs) (hr : e.toEngineRegs.SameStatus r) : r.StatusOk := hr.statusOk he
  cases h with
  | walks hplane h =>
    obtain ⟨_, _, _, _, _, rfl⟩ := h.frame
    exact he
  | nextPlane hplane h hnext =>
    obtain ⟨_, _, _, _, _, rfl⟩ := h.frame
    exact he
  | lastPlane apal eout hplane h hlast =>
    obtain ⟨_, _, _, _, _, rfl⟩ := h.frame
    exact same _ ⟨rfl, rfl, rfl, rfl, rfl⟩
  | row => exact he
  | finish => exact EngineRegs.statusOk_finishRun he hbusy

theorem Transition.statusOk {s t : State} (hs : s.StatusOk) (h : Transition s t) : t.StatusOk := by
  cases h with
  | unchanged => exact hs
  | looked v n => exact hs
  | writeReg e n v => exact State.statusOk_hostWriteReg hs e n v
  | write space a v => exact State.statusOk_hostWrite hs space a v
  | reset => exact ⟨EngineRegs.statusOk_reset, EngineRegs.statusOk_reset⟩
  | command h => exact State.statusOk_hostEffect hs h
  | reserved hidle => exact State.statusOk_faultEntry hs _ _ _
  | underrun => exact State.statusOk_spoilDec (State.statusOk_faultEntry hs _ _ _)
  | stream hbusy hplane hfetch hwf h =>
    exact State.statusOk_streamEffect (State.statusOk_dec hs (Decoder.fetchWord_regs hfetch ▸ hs.1)) h
  | decFinish hbusy hplane => exact State.statusOk_dec hs (EngineRegs.statusOk_finishRun hs.1 hbusy)
  | encode d hbusy hd => exact State.statusOk_enc hs ((Encoder.step_effect hd).statusOk hs.2 hbusy)
  | encodeFaulted c epc => exact State.statusOk_spoilEnc (State.statusOk_faultEntry hs .enc c epc)

/-- Settles O54: every transition keeps the protocol, and the agenda is not part of it. -/
theorem stepKeepsStatusProtocol : Obligations.StepKeepsStatusProtocol := by
  intro s t hs h
  obtain ⟨turns, htrans⟩ := step_transition h
  exact htrans.statusOk (s := { s with agenda := turns }) hs

end Sys2Proof.Machine
end

section
/-! PROOF. The bounds of a running decode (10_state.md R21, R25, 40_decoder_commands.md R136): the region
inside the file, `SP` inside the region, and the cursor at most 32766 for each byte the region has given. -/

namespace Sys2Proof.Machine

/-- The region and the cursor of a decoder are within their bounds. -/
def Decoder.BoundsOk (d : Decoder) : Prop := d.RegionOk ∧ d.CursorOk

/-- What an idle decoder, or one that a step leaves alone, does to the bounds: it is the same decoder, or it
is idle and its `D_INLEN` still fits DIN. -/
def Decoder.Rests (d d' : Decoder) : Prop :=
  d' = d ∨ (d'.busy = false ∧ (d.inLen.toNat ≤ Config.fileCap → d'.inLen.toNat ≤ Config.fileCap))

theorem Decoder.rests_of_same_inLen {d d' : Decoder} (hbusy : d'.busy = false)
    (hlen : d'.inLen = d.inLen) : d.Rests d' := .inr ⟨hbusy, fun h => hlen ▸ h⟩

theorem Decoder.Rests.boundsOk {d d' : Decoder} (h : d.Rests d') (hd : d.BoundsOk) : d'.BoundsOk := by
  obtain rfl | ⟨hbusy, hlen⟩ := h
  · exact hd
  · have hidle : ¬d'.busy = true := by simp [hbusy]
    exact ⟨⟨hlen hd.1.1, fun hb => absurd hb hidle⟩, fun hb => absurd hb hidle⟩

/-- An engine that a step leaves idle keeps the bounds with its `D_INLEN`. -/
theorem Decoder.BoundsOk.of_idle {d d' : Decoder} (hd : d.BoundsOk) (hbusy : d'.busy = false)
    (hlen : d'.inLen = d.inLen) : d'.BoundsOk :=
  (Decoder.rests_of_same_inLen hbusy hlen).boundsOk hd

/-! ## Host accesses and host commands -/

theorem storedLength_le (v : Word32) : (storedLength v).toNat ≤ Config.fileCap := by
  rw [storedLength, BitVec.toNat_ofNat]
  exact (Nat.mod_le _ _).trans (Nat.min_le_right _ _)

theorem EngineRegs.writeReg_busy (r : EngineRegs) (n : Nat) (v : Word32) :
    (r.writeReg n v).busy = r.busy := (r.writeReg_sameStatus n v).busy

theorem State.hostWriteReg_rests_dec (s : State) (e : Engine) (n : Nat) (v : Word32) :
    s.dec.Rests (s.hostWriteReg e n v).dec := by
  unfold State.hostWriteReg
  split
  · exact .inl rfl
  next hidle =>
  unfold State.writeReg
  split
  · exact .inr ⟨by simpa using hidle, fun _ => storedLength_le v⟩
  · exact .inl rfl
  · exact .inl rfl
  · cases e with
    | dec => exact Decoder.rests_of_same_inLen (by simpa [EngineRegs.writeReg_busy] using hidle) rfl
    | enc => exact .inl rfl

theorem State.idle_of_mayWrite {s : State} {space : Space} {a : Nat} (h : s.mayWrite space a = true) :
    (s.regs space.engine).busy = false := by
  simp only [State.mayWrite, Bool.and_eq_true, Bool.not_eq_true'] at h
  exact h.1.1

theorem State.hostWrite_rests_dec (s : State) (space : Space) (a : Nat) (v : Word32) :
    s.dec.Rests (s.hostWrite space a v).dec := by
  unfold State.hostWrite
  split
  case isFalse => exact .inl rfl
  next hmay =>
  have hidle := State.idle_of_mayWrite hmay
  cases space with
  | din => exact Decoder.rests_of_same_inLen hidle rfl
  | canvas | grid | eout | apal => exact .inl rfl
  | aux e | xpal e | cim e =>
    cases e with
    | dec => exact Decoder.rests_of_same_inLen hidle rfl
    | enc => exact .inl rfl

/-- The set-up leaves `SP` at the start of a region that lies inside the file, the cursor at 0. -/
theorem Decoder.SetUp.boundsOk {d d' : Decoder} (h : d.SetUp d') (hd : d.BoundsOk) : d'.BoundsOk := by
  obtain ⟨-, hinLen, ⟨hpal, haw, hah⟩, hroom, hsp, hcsend, hplane, hcur⟩ := h
  have hcap : d'.inLen.toNat ≤ Config.fileCap := hinLen ▸ hd.1.1
  have hsp' : d'.sp.toNat = d'.csStart := by
    rw [hsp, BitVec.toNat_ofNat]; simp only [Config.fileCap] at hcap; omega
  have hcsend' : d'.csend.toNat = d'.csStart + d'.csLen.toNat := by
    rw [hcsend, BitVec.toNat_ofNat]; simp only [Config.fileCap] at hcap; omega
  exact ⟨⟨hcap, fun _ => ⟨hpal, haw, hah, hsp'.ge, by omega, hcsend', by omega, by simp [hplane]⟩⟩,
    fun _ => by simp [hcur]⟩

theorem HostEffect.dec_boundsOk {s t : State} {e : Engine} (h : HostEffect s e t)
    (hs : s.dec.BoundsOk) : t.dec.BoundsOk := by
  cases h with
  | unchanged => exact hs
  | acknowledged hidle =>
    cases e with
    | dec => exact hs.of_idle hidle rfl
    | enc => exact hs
  | table r hidle hstatus haux =>
    cases e with
    | dec => exact hs.of_idle rfl rfl
    | enc => exact hs
  | tableFaulted c hidle =>
    cases e with
    | dec => exact hs.of_idle rfl rfl
    | enc => exact hs
  | runDec d hidle hd => exact (Decoder.setup_ok hd).boundsOk hs
  | runDecFaulted c epc => exact hs.of_idle rfl rfl
  | runEnc d hidle hd => exact hs
  | runEncFaulted c epc => exact hs

/-! ## The stream -/

/-- A running decoder after the fetch of a command word: its cursor is within the bound of the bytes before
the word, so the word's two bytes leave room for the command. -/
structure Decoder.FetchedOk (d : Decoder) : Prop where
  region : d.RegionOk
  plane  : d.plane.toNat < Config.planes
  cursor : d.cur.toNat + 65532 ≤ 3 + 32766 * (d.sp.toNat - d.csStart)

theorem Decoder.fetchedOk_of_fetchWord {d d' : Decoder} (hd : d.BoundsOk) (hbusy : d.busy = true)
    (hplane : d.plane.toNat < Config.planes) (h : d.fetchWord = .ok d') : d'.FetchedOk := by
  obtain ⟨⟨hcap, hregion⟩, hcursor⟩ := hd
  obtain ⟨hpal, haw, hah, hlow, hhigh, hcsend, hin, -⟩ := hregion hbusy
  have hcur := hcursor hbusy
  rcases d.fetchWord_cases with ⟨-, ho⟩ | ⟨-, -, ho⟩ | ⟨hroom, -, ho⟩ <;> rw [ho] at h <;> cases h
  have hsp : (d.sp + 2).toNat = d.sp.toNat + 2 := by
    simp only [Config.fileCap] at hcap
    bv_omega
  refine ⟨⟨hcap, fun _ => ⟨hpal, haw, hah, ?_, ?_, hcsend, hin, hplane.le⟩⟩, hplane, ?_⟩
  · exact hsp ▸ hlow.trans (Nat.le_add_right _ 2)
  · exact hsp ▸ hroom
  · show d.cur.toNat + 65532 ≤ 3 + 32766 * ((d.sp + 2).toNat - d.csStart)
    rw [hsp]
    omega

theorem Decoder.FetchedOk.endPlane {d : Decoder} (h : d.FetchedOk) : d.endPlane.BoundsOk := by
  obtain ⟨⟨hcap, hregion⟩, hplane, hcur⟩ := h
  simp only [Config.planes] at hplane
  have hnext : (d.plane + 1).toNat = d.plane.toNat + 1 := by bv_omega
  refine ⟨⟨hcap, fun hb => ?_⟩, fun _ => ?_⟩
  · obtain ⟨hpal, haw, hah, hlow, hhigh, hcsend, hin, -⟩ := hregion hb
    exact ⟨hpal, haw, hah, hlow, hhigh, hcsend, hin, by rw [Decoder.endPlane_plane, hnext]; exact hplane⟩
  · show d.endPlane.cur.toNat ≤ 3 + 32766 * (d.sp.toNat - d.csStart)
    rw [Decoder.endPlane_cur]
    split
    · next hlt =>
      have hcur' : ((d.plane + 1).setWidth 32).toNat = d.plane.toNat + 1 := by
        rw [BitVec.toNat_setWidth, hnext]; omega
      rw [hcur']
      simp only [hnext, Config.planes] at hlt
      omega
    · omega

/-- A command that passes at most 16383 positions moves the cursor by at most 65532, the share of its own
command word (R136). -/
theorem Decoder.FetchedOk.advanced {d : Decoder} (h : d.FetchedOk) {k n : Nat}
    (hroom : k = 0 ∨ d.sp.toNat + k ≤ d.csend.toNat) (hn : n ≤ Config.countMax) (idx : Byte)
    (canvas : PixelSpace) (cim : Vector CimEntry 256) : (d.advanced k n idx canvas cim).BoundsOk := by
  obtain ⟨⟨hcap, hregion⟩, hplane, hcur⟩ := h
  refine ⟨⟨hcap, fun hb => ?_⟩, fun hb => ?_⟩ <;>
    obtain ⟨hpal, haw, hah, hlow, hhigh, hcsend, hin, hp⟩ := hregion hb <;>
    have hsp : (d.advanced k n idx canvas cim).sp.toNat = d.sp.toNat + k :=
      Decoder.advanced_sp_toNat (by omega) n idx canvas cim
  · refine ⟨hpal, haw, hah, hsp ▸ hlow.trans (Nat.le_add_right _ k), ?_, hcsend, hin, hp⟩
    rw [hsp]
    show d.sp.toNat + k ≤ d.csend.toNat
    omega
  · have hmove : (d.cur + 4 * BitVec.ofNat 32 n).toNat ≤ d.cur.toNat + 4 * n := by
      simp only [Config.countMax] at hn
      bv_omega
    show (d.cur + 4 * BitVec.ofNat 32 n).toNat ≤
      3 + 32766 * ((d.advanced k n idx canvas cim).sp.toNat - d.csStart)
    rw [hsp]
    simp only [Config.countMax] at hn
    omega

theorem StreamEffect.dec_boundsOk {i : Instr} {s t : State} (hs : s.dec.FetchedOk)
    (hwf : i.wellFormed = true) (h : StreamEffect i s t) : t.dec.BoundsOk := by
  cases h with
  | endPlane => exact hs.endPlane
  | advanced k n idx canvas cim hroom hn => exact hs.advanced hroom (hn hwf) idx canvas cim
  | faulted c epc => exact ⟨⟨hs.region.1, fun hb => by cases hb⟩, fun hb => by cases hb⟩

/-! ## The transitions -/

theorem Transition.dec_boundsOk {s t : State} (hs : s.dec.BoundsOk) (h : Transition s t) :
    t.dec.BoundsOk := by
  cases h with
  | unchanged => exact hs
  | looked v n => exact hs
  | writeReg e n v => exact (s.hostWriteReg_rests_dec e n v).boundsOk hs
  | write space a v => exact (s.hostWrite_rests_dec space a v).boundsOk hs
  | reset =>
    have hrests : s.dec.Rests s.resetEvent.dec := .inr ⟨rfl, fun _ => Nat.zero_le _⟩
    exact hrests.boundsOk hs
  | command h => exact h.dec_boundsOk hs
  | @reserved e hidle =>
    cases e with
    | dec => exact hs.of_idle rfl rfl
    | enc => exact hs
  | underrun => exact hs.of_idle rfl rfl
  | stream hbusy hplane hfetch hwf h =>
    exact StreamEffect.dec_boundsOk (Decoder.fetchedOk_of_fetchWord hs hbusy hplane hfetch) hwf h
  | decFinish hbusy hplane => exact hs.of_idle rfl rfl
  | encode d hbusy hd => exact hs
  | encodeFaulted c epc => exact hs

/-- The region has at most 65535 bytes, so the cursor's bound lies below 2^31. -/
theorem Decoder.BoundsOk.cur_lt {d : Decoder} (h : d.BoundsOk) (hbusy : d.busy = true) :
    d.cur.toNat < 2 ^ 31 := by
  obtain ⟨⟨-, hregion⟩, hcursor⟩ := h
  obtain ⟨-, -, -, -, hhigh, hcsend, -, -⟩ := hregion hbusy
  have hlen : d.csLen.toNat < 65536 := d.csLen.isLt
  have hcur := hcursor hbusy
  omega

/-- Settles O55: every transition keeps the region and the cursor within their bounds. -/
theorem stepKeepsDecoderBounds : Obligations.StepKeepsDecoderBounds := by
  intro s t hregion hcursor h
  obtain ⟨turns, htrans⟩ := step_transition h
  have ht : t.dec.BoundsOk := htrans.dec_boundsOk (s := { s with agenda := turns }) ⟨hregion, hcursor⟩
  exact ⟨ht.1, ht.2, ht.cur_lt⟩

end Sys2Proof.Machine
end

section
/-! PROOF. The bounds of a running encode (10_state.md R22, 43_encoder_runs.md R215, R224,
44_encoder_visibility.md R246): the stream within its largest length, `POS` on its plane, and the carried
columns of the descriptor. -/

namespace Sys2Proof.Machine

/-! ## An encoder that does not run -/

/-- What an idle encoder, or one that a step leaves alone, does to the bounds: it is the same encoder, or it
is idle and its `E_OUTLEN` still fits EOUT. -/
def Encoder.Rests (e e' : Encoder) : Prop :=
  e' = e ∨ (e'.busy = false ∧ (e.outLen.toNat ≤ Config.fileCap → e'.outLen.toNat ≤ Config.fileCap))

theorem Encoder.rests_of_same_outLen {e e' : Encoder} (hbusy : e'.busy = false)
    (hlen : e'.outLen = e.outLen) : e.Rests e' := .inr ⟨hbusy, fun h => hlen ▸ h⟩

theorem Encoder.rests_of_no_output {e e' : Encoder} (hbusy : e'.busy = false) (hlen : e'.outLen = 0) :
    e.Rests e' := .inr ⟨hbusy, fun _ => by simp [hlen]⟩

theorem Encoder.walkOk_of_idle {e : Encoder} (hbusy : e.busy = false)
    (hlen : e.outLen.toNat ≤ Config.fileCap) : e.WalkOk :=
  ⟨hlen, fun hb => by simp [hbusy] at hb⟩

theorem Encoder.WalkOk.rests {e e' : Encoder} (he : e.WalkOk) (h : e.Rests e') : e'.WalkOk := by
  obtain rfl | ⟨hbusy, hlen⟩ := h
  · exact he
  · exact Encoder.walkOk_of_idle hbusy (hlen he.1)

/-! ## Host accesses and host commands -/

theorem State.hostWriteReg_rests_enc (s : State) (e : Engine) (n : Nat) (v : Word32) :
    s.enc.Rests (s.hostWriteReg e n v).enc := by
  unfold State.hostWriteReg
  split
  · exact .inl rfl
  next hidle =>
  unfold State.writeReg
  split
  · exact .inl rfl
  · exact Encoder.rests_of_same_outLen (by simpa using hidle) rfl
  · exact Encoder.rests_of_same_outLen (by simpa using hidle) rfl
  · cases e with
    | dec => exact .inl rfl
    | enc => exact Encoder.rests_of_same_outLen (by simpa [EngineRegs.writeReg_busy] using hidle) rfl

theorem State.hostWrite_rests_enc (s : State) (space : Space) (a : Nat) (v : Word32) :
    s.enc.Rests (s.hostWrite space a v).enc := by
  unfold State.hostWrite
  split
  case isFalse => exact .inl rfl
  next hmay =>
  have hidle := State.idle_of_mayWrite hmay
  cases space with
  | grid => exact Encoder.rests_of_same_outLen hidle rfl
  | din | canvas | eout | apal => exact .inl rfl
  | aux e | xpal e | cim e =>
    cases e with
    | dec => exact .inl rfl
    | enc => exact Encoder.rests_of_same_outLen hidle rfl

/-- The set-up of an encode leaves an empty stream at its base and `POS` at the first position. -/
theorem Encoder.SetUp.walkOk {e e' : Encoder} (h : e.SetUp e') : e'.WalkOk := by
  obtain ⟨-, houtLen, ⟨hgw, hgh⟩, hpal, hbase, hwp, hplane, hpos⟩ := h
  refine ⟨by simp [houtLen], fun _ => ⟨hgw, hgh, hpal, hbase, hwp ▸ Nat.le_refl _,
    hwp ▸ Nat.le_add_right _ _, by simp [hplane], fun _ => ?_, fun hend => ?_⟩⟩
  · rw [hplane, hpos]
    decide
  · rw [hplane] at hend
    cases hend

theorem HostEffect.enc_walkOk {s t : State} {e : Engine} (h : HostEffect s e t)
    (hs : s.enc.WalkOk) : t.enc.WalkOk := by
  cases h with
  | unchanged => exact hs
  | acknowledged hidle =>
    cases e with
    | dec => exact hs
    | enc => exact hs.rests (Encoder.rests_of_no_output hidle rfl)
  | table r hidle hstatus haux =>
    cases e with
    | dec => exact hs
    | enc => exact hs.rests (Encoder.rests_of_same_outLen rfl rfl)
  | tableFaulted c hidle =>
    cases e with
    | dec => exact hs
    | enc => exact hs.rests (Encoder.rests_of_same_outLen rfl rfl)
  | runDec d hidle hd => exact hs
  | runDecFaulted c epc => exact hs
  | runEnc d hidle hd => exact (Encoder.setup_ok hd).walkOk
  | runEncFaulted c epc => exact hs.rests (Encoder.rests_of_no_output rfl rfl)

/-! ## The steps of a running encode -/

/-- What holds through the whole of an encode: the bounds of the grid, `HASPAL` and `BASE`, and the stream
within its largest length. -/
structure Encoder.RunOk (e : Encoder) : Prop where
  outLen : e.outLen.toNat ≤ Config.fileCap
  grid   : e.gw.toNat ≤ Config.virtualWidth ∧ e.gh.toNat ≤ Config.virtualHeight
  hasPal : e.hasPal.toNat ≤ 1
  base   : e.base.toNat = Config.headerBytes + Config.paletteBytes * e.hasPal.toNat
  stream : e.StreamOk

/-- What holds once the four planes are done. -/
def Encoder.DescriptorOk (e : Encoder) : Prop :=
  e.csLen.toNat = e.wp.toNat - e.base.toNat ∧ e.row.toNat ≤ Config.virtualHeight ∧
    e.pending.toNat ≤ 316 ∧ e.pending.toNat % 4 = 0

theorem Encoder.walkOk_of_parts {e : Encoder} (hrun : e.RunOk) (hplane : e.plane.toNat ≤ Config.planes)
    (hpos : e.plane.toNat < Config.planes → e.PosOk)
    (hdesc : e.plane.toNat = Config.planes → e.DescriptorOk) : e.WalkOk := by
  obtain ⟨houtLen, ⟨hgw, hgh⟩, hpal, hbase, -, hlow, hhigh⟩ := hrun
  exact ⟨houtLen, fun _ => ⟨hgw, hgh, hpal, hbase, hlow, hhigh, hplane, hpos, hdesc⟩⟩

theorem Encoder.WalkOk.parts {e : Encoder} (h : e.WalkOk) (hbusy : e.busy = true) :
    e.RunOk ∧ e.plane.toNat ≤ Config.planes ∧ (e.plane.toNat < Config.planes → e.PosOk) ∧
      (e.plane.toNat = Config.planes → e.DescriptorOk) := by
  obtain ⟨houtLen, hrun⟩ := h
  obtain ⟨hgw, hgh, hpal, hbase, hlow, hhigh, hplane, hpos, hdesc⟩ := hrun hbusy
  have hbase776 : e.base.toNat ≤ Config.headerBytes + Config.paletteBytes :=
    hbase ▸ Nat.add_le_add_left (Nat.mul_le_mul_left _ hpal) _
  exact ⟨⟨houtLen, ⟨hgw, hgh⟩, hpal, hbase, hbase776, hlow, hhigh⟩, hplane, hpos, hdesc⟩

theorem Encoder.Walks.runOk {e e' : Encoder} (h : e.Walks e') (he : e.RunOk) : e'.RunOk := by
  obtain ⟨⟨_, _, _, _, _, rfl⟩, hstream, -⟩ := h
  exact ⟨he.outLen, he.grid, he.hasPal, he.base, hstream he.stream⟩

theorem Encoder.Walks.plane_eq {e e' : Encoder} (h : e.Walks e') : e'.plane = e.plane := by
  obtain ⟨_, _, _, _, _, rfl⟩ := h.frame
  rfl

theorem plane_succ_toNat {p : BitVec 3} (h : p.toNat < Config.planes) : (p + 1).toNat = p.toNat + 1 := by
  simp only [Config.planes] at h
  bv_omega

/-- After the end of a plane that is not the last, `POS` is the first position of the next one. -/
theorem Encoder.walkOk_nextPlane {e : Encoder} (he : e.RunOk)
    (hnext : (e.plane + 1).toNat < Config.planes) :
    ({ e with plane := e.plane + 1, pos := (e.plane + 1).setWidth 17 } : Encoder).WalkOk := by
  refine Encoder.walkOk_of_parts ⟨he.outLen, he.grid, he.hasPal, he.base, he.stream⟩ hnext.le
    (fun _ => ?_) fun hend => absurd hend hnext.ne
  have hpos : ((e.plane + 1).setWidth 17).toNat = (e.plane + 1).toNat := by
    rw [BitVec.toNat_setWidth]
    exact Nat.mod_eq_of_lt (hnext.trans (by decide))
  exact ⟨by rw [hpos]; exact hnext.trans (by decide), by rw [hpos]; exact Nat.mod_eq_of_lt hnext⟩

/-- After the last plane the length of the stream stands in `CSLEN` and the descriptor begins. -/
theorem Encoder.walkOk_lastPlane {e : Encoder} (he : e.RunOk) (hplane : e.plane.toNat < Config.planes)
    (apal : Vector Colour 256) (eout : ByteSpace) (hlast : ¬(e.plane + 1).toNat < Config.planes) :
    ({ e with
      csLen := BitVec.ofNat 16 (e.wp.toNat - e.base.toNat)
      apal := apal
      eout := eout
      plane := e.plane + 1
      row := 0
      pending := 0 } : Encoder).WalkOk := by
  have hp := plane_succ_toNat hplane
  refine Encoder.walkOk_of_parts ⟨he.outLen, he.grid, he.hasPal, he.base, he.stream⟩ (hp ▸ hplane)
    (fun hlt => absurd hlt hlast) fun _ => ⟨?_, by simp, by simp, by simp⟩
  have hlen : e.wp.toNat - e.base.toNat < 2 ^ 16 := by
    have hhigh := he.stream.2.2
    simp only [Config.streamMax] at hhigh
    omega
  exact (BitVec.toNat_ofNat ..).trans (Nat.mod_eq_of_lt hlen)

/-- A row of the descriptor moves `ROW` on by one and leaves the stream alone. -/
theorem Encoder.walkOk_row {e : Encoder} (he : e.RunOk) (hplane : e.plane.toNat = Config.planes)
    (hdesc : e.DescriptorOk) (any : Bool) (minc maxc : BitVec 9) {pending : Nat} (eout : ByteSpace)
    (hrow : e.row.toNat < Config.virtualHeight) (hpending : pending ≤ 316 ∧ pending % 4 = 0) :
    ({ e with
      any := any
      minc := minc
      maxc := maxc
      eout := eout
      pending := BitVec.ofNat 9 pending
      row := e.row + 1 } : Encoder).WalkOk := by
  have hrow' : (e.row + 1).toNat = e.row.toNat + 1 := by
    simp only [Config.virtualHeight] at hrow
    bv_omega
  have hpending' : (BitVec.ofNat 9 pending).toNat = pending := by
    rw [BitVec.toNat_ofNat]
    omega
  refine Encoder.walkOk_of_parts ⟨he.outLen, he.grid, he.hasPal, he.base, he.stream⟩ hplane.le
    (fun hlt => absurd hplane hlt.ne) fun _ => ⟨hdesc.1, hrow' ▸ hrow, ?_, ?_⟩
  · exact hpending'.symm ▸ hpending.1
  · exact hpending'.symm ▸ hpending.2

/-- The longest file is header, palette, stream and descriptor, which EOUT just holds (R227). -/
theorem Encoder.walkOk_finish {e : Encoder} (he : e.RunOk) (hdesc : e.DescriptorOk) :
    e.finish.WalkOk := by
  refine Encoder.walkOk_of_idle rfl ?_
  obtain ⟨hbase, hlow, hhigh⟩ := he.stream
  have hlen := hdesc.1
  simp only [Encoder.finish, BitVec.toNat_ofNat, Config.headerBytes, Config.paletteBytes,
    Config.streamMax, Config.descriptorBytes, Config.fileCap] at *
  omega

theorem Encoder.StepEffect.walkOk {e e' : Encoder} (he : e.WalkOk) (hbusy : e.busy = true)
    (h : e.StepEffect e') : e'.WalkOk := by
  obtain ⟨hrun, hmax, hpos, hdesc⟩ := he.parts hbusy
  cases h with
  | walks hplane h =>
    have hp := h.plane_eq
    exact Encoder.walkOk_of_parts (h.runOk hrun) (hp ▸ hmax) (fun _ => h.pos (hpos hplane))
      fun hend => absurd (hp ▸ hend) hplane.ne
  | nextPlane hplane h hnext => exact Encoder.walkOk_nextPlane (h.runOk hrun) hnext
  | lastPlane apal eout hplane h hlast =>
    exact Encoder.walkOk_lastPlane (h.runOk hrun) (h.plane_eq ▸ hplane) apal eout hlast
  | row any minc maxc pending eout hplane hrow hpending =>
    have hend := Nat.le_antisymm hmax hplane
    exact Encoder.walkOk_row hrun hend (hdesc hend) any minc maxc eout hrow hpending
  | finish hplane => exact Encoder.walkOk_finish hrun (hdesc (Nat.le_antisymm hmax hplane))

/-! ## The transitions -/

theorem Transition.enc_walkOk {s t : State} (hs : s.enc.WalkOk) (h : Transition s t) :
    t.enc.WalkOk := by
  cases h with
  | unchanged => exact hs
  | looked v n => exact hs
  | writeReg e n v => exact hs.rests (s.hostWriteReg_rests_enc e n v)
  | write space a v => exact hs.rests (s.hostWrite_rests_enc space a v)
  | reset => exact hs.rests (Encoder.rests_of_no_output rfl rfl)
  | command h => exact h.enc_walkOk hs
  | @reserved e hidle =>
    cases e with
    | dec => exact hs
    | enc => exact hs.rests (Encoder.rests_of_no_output rfl rfl)
  | underrun => exact hs
  | stream hbusy hplane hfetch hwf h =>
    cases h with
    | endPlane | advanced | faulted => exact hs
  | decFinish hbusy hplane => exact hs
  | encode d hbusy hd => exact (Encoder.step_effect hd).walkOk hs hbusy
  | encodeFaulted c epc => exact hs.rests (Encoder.rests_of_no_output rfl rfl)

/-- Settles O57: every transition keeps the registers of an encode within their bounds. -/
theorem stepKeepsEncoderBounds : Obligations.StepKeepsEncoderBounds := by
  intro s t hs h
  obtain ⟨turns, htrans⟩ := step_transition h
  exact htrans.enc_walkOk (s := { s with agenda := turns }) hs

end Sys2Proof.Machine
end

section
/-! PROOF. Reset, and the separation of the engines (10_state.md R20, R65, 60_exceptions.md R282,
70_reset_and_hazards.md R300). -/

namespace Sys2Proof.Machine

/-! ## The engines share nothing -/

/-- From `s` to `t` nothing has changed outside engine `e` but the counter of free values. -/
structure State.OnlyEngine (s : State) (e : Engine) (t : State) : Prop where
  enc    : e = .dec → t.enc = s.enc
  dec    : e = .enc → t.dec = s.dec
  par    : t.par = s.par
  agenda : t.agenda = s.agenda
  rdata  : t.rdata = s.rdata

theorem State.OnlyEngine.refl (s : State) (e : Engine) : s.OnlyEngine e s :=
  ⟨fun _ => rfl, fun _ => rfl, rfl, rfl, rfl⟩

theorem State.onlyEngine_setRegs (s : State) (e : Engine) (r : EngineRegs) :
    s.OnlyEngine e (s.setRegs e r) := by
  cases e with
  | dec => exact ⟨fun _ => rfl, nofun, rfl, rfl, rfl⟩
  | enc => exact ⟨nofun, fun _ => rfl, rfl, rfl, rfl⟩

theorem HostEffect.onlyEngine {s t : State} {e : Engine} (h : HostEffect s e t) :
    s.OnlyEngine e t := by
  cases h with
  | unchanged => exact .refl s e
  | acknowledged =>
    exact ⟨fun he => he ▸ rfl, fun he => he ▸ rfl, by simp, by simp, by simp⟩
  | table r => exact s.onlyEngine_setRegs e r.finishTable
  | tableFaulted c =>
    rw [State.tableFault, State.setRegs_setRegs]
    exact s.onlyEngine_setRegs e _
  | runDec | runDecFaulted => exact ⟨fun _ => rfl, nofun, rfl, rfl, rfl⟩
  | runEnc | runEncFaulted => exact ⟨nofun, fun _ => rfl, rfl, rfl, rfl⟩

theorem StreamEffect.onlyEngine {i : Instr} {s t : State} (h : StreamEffect i s t) :
    s.OnlyEngine .dec t := by
  cases h <;> exact ⟨fun _ => rfl, nofun, rfl, rfl, rfl⟩

theorem engineOf_of_onStream {i : Instr} (h : onStream i = true) : engineOf i = .dec := by
  cases i with
  | eop | skip | repeatRun | copyRun => rfl
  | _ => cases h

theorem exec_onlyEngine {i : Instr} {s t : State} (h : exec i s = .next t) :
    s.OnlyEngine (engineOf i) t := by
  cases hi : onStream i with
  | true => exact engineOf_of_onStream hi ▸ (exec_stream hi h).onlyEngine
  | false => exact (exec_host hi h).onlyEngine

/-- Settles O51: an instruction changes its own engine alone. -/
theorem enginesShareNothing : Obligations.EnginesShareNothing := by
  intro i s t h
  obtain ⟨henc, hdec, hpar, hagenda, hrdata⟩ := exec_onlyEngine h
  exact ⟨henc, hdec, hpar, hagenda, hrdata⟩

/-! ## Reset -/

theorem step_reset {s : State} {turns : List Turn} (h : s.agenda = .reset :: turns) :
    step s = .next ({ s with agenda := turns } : State).resetEvent := by
  simp only [step, State.fetch, h]

theorem EngineRegs.reset_xpal (i : Byte) : Table.get EngineRegs.reset.xpal i = 0 := by
  simp [EngineRegs.reset, Table.get, Config.black]

theorem EngineRegs.reset_cim_valid (i : Byte) : (Table.get EngineRegs.reset.cim i).valid = false := by
  simp [EngineRegs.reset, Table.get]

/-- Settles O50: the event gives both engines the registers of `EngineRegs.reset`. -/
theorem resetEventValues : Obligations.ResetEventValues := by
  intro s turns e h
  have hregs : (({ s with agenda := turns } : State).resetEvent).regs e = EngineRegs.reset := by
    cases e <;> rfl
  refine ⟨_, step_reset h, rfl, rfl, ?_⟩
  rw [hregs]
  exact ⟨rfl, rfl, rfl, rfl, rfl, rfl, rfl, rfl, rfl, rfl, rfl, rfl, EngineRegs.reset_xpal,
    EngineRegs.reset_cim_valid, rfl, rfl, rfl, rfl, rfl, rfl⟩

/-- Settles O52: after reset the spaces are empty, the status is clean, and neither engine runs. -/
theorem resetMeetsInvariant : Obligations.ResetMeetsInvariant where
  memory := rfl
  status := ⟨EngineRegs.statusOk_reset, EngineRegs.statusOk_reset⟩
  region := ⟨Nat.zero_le _, nofun⟩
  cursor := nofun
  map := nofun
  walk := Encoder.walkOk_of_idle rfl (Nat.zero_le _)

end Sys2Proof.Machine
end

section
/-! PROOF. The host's accesses to the registers of an idle engine: the fields of the register table
(10_state.md R40 to R50). -/

namespace Sys2Proof.Machine

/-! ## Which access a step makes -/

theorem step_readReg {s : State} {turns : List Turn} {e : Engine} {n : Nat}
    (h : s.agenda = .host (.readReg e n) :: turns) :
    step s = .next (({ s with agenda := turns } : State).hostReadReg e n) := by
  simp only [step, State.fetch, h, State.fetchHost]

/-- Every register number but that of `CMD` is a plain write. -/
theorem step_writeReg {s : State} {turns : List Turn} {e : Engine} {n : Nat} {v : Word32}
    (h : s.agenda = .host (.writeReg e n v) :: turns) (hn : 1 ≤ n) :
    step s = .next (({ s with agenda := turns } : State).hostWriteReg e n v) := by
  obtain ⟨m, rfl⟩ := Nat.exists_eq_add_of_le' hn
  simp only [step, State.fetch, h, State.fetchHost]

theorem step_read {s : State} {turns : List Turn} {space : Space} {a : Nat}
    (h : s.agenda = .host (.read space a) :: turns) :
    step s = .next (({ s with agenda := turns } : State).hostRead space a) := by
  simp only [step, State.fetch, h, State.fetchHost]

theorem step_write {s : State} {turns : List Turn} {space : Space} {a : Nat} {v : Word32}
    (h : s.agenda = .host (.write space a v) :: turns) :
    step s = .next (({ s with agenda := turns } : State).hostWrite space a v) := by
  simp only [step, State.fetch, h, State.fetchHost]

/-! ## The fields of a value -/

theorem EngineRegs.ctrl_toNat (r : EngineRegs) :
    r.ctrl.toNat = r.palv.toNat + 2 * r.patchEn.toNat := by
  unfold EngineRegs.ctrl
  cases r.palv <;> cases r.patchEn <;> rfl

theorem EngineRegs.status_toNat (r : EngineRegs) :
    r.status.toNat = r.busy.toNat + 2 * r.done.toNat + 4 * r.err.toNat := by
  unfold EngineRegs.status
  cases r.busy <;> cases r.done <;> cases r.err <;> rfl

theorem extract_toNat (v : Word32) (w : Nat) : (v.extractLsb' 0 w).toNat = v.toNat % 2 ^ w := by
  rw [BitVec.extractLsb'_toNat, Nat.shiftRight_zero]

theorem extract_eq_ofNat (v : Word32) (w : Nat) : v.extractLsb' 0 w = BitVec.ofNat w v.toNat :=
  BitVec.eq_of_toNat_eq (by rw [extract_toNat, BitVec.toNat_ofNat])

/-- What a write of `D_INLEN` stores (R46). -/
theorem storedLength_toNat (v : Word32) : (storedLength v).toNat = min (v.toNat % 131072) 67111 := by
  rw [storedLength, BitVec.toNat_ofNat, extract_toNat, Config.fileCap]
  exact Nat.mod_eq_of_lt (by omega)

/-! ## The register table -/

theorem State.readReg_beyond (s : State) (e : Engine) {n : Nat} (hn : 13 ≤ n) : s.readReg e n = 0 := by
  obtain ⟨m, rfl⟩ := Nat.exists_eq_add_of_le' hn
  cases e <;> rfl

/-- The numbers at which both engines have the same register. -/
theorem State.readReg_common (s : State) (e : Engine) {n : Nat} (hn : n ∉ [8, 11, 12]) :
    s.readReg e n = (s.regs e).readReg n := by
  unfold State.readReg
  split
  case h_7 => rfl
  all_goals exact absurd (by decide) hn

theorem State.hostReadReg_idle {s : State} {e : Engine} (hidle : (s.regs e).busy = false) (n : Nat) :
    s.hostReadReg e n = { s with rdata := s.readReg e n } := by
  simp [State.hostReadReg, hidle, State.returned]

/-- Settles O47: a field of the register table is zero-extended to the word the host reads. -/
theorem hostReadsRegisterFields : Obligations.HostReadsRegisterFields := by
  rintro s turns e n r h hidle rfl
  have hread := State.hostReadReg_idle (s := { s with agenda := turns }) hidle n
  have hfield {w : Nat} (x : BitVec w) (hw : w ≤ 32) (hn : n ∉ [8, 11, 12])
      (hx : (s.regs e).readReg n = x.setWidth 32) : (s.readReg e n).toNat = x.toNat := by
    rw [s.readReg_common e hn, hx, BitVec.toNat_setWidth_of_le hw]
  refine ⟨s.readReg e n, (step_readReg h).trans (congrArg _ hread), ?_⟩
  refine ⟨?_, ?_, ?_, ?_, ?_, ?_, ?_, ?_, ?_, ?_, ?_, ?_, ?_, s.readReg_beyond e⟩ <;> rintro rfl
  · exact s.readReg_common e (by decide)
  · exact (hfield _ (by decide) (by decide) rfl).trans (EngineRegs.ctrl_toNat _)
  · exact (hfield _ (by decide) (by decide) rfl).trans (EngineRegs.status_toNat _)
  · exact hfield _ (by decide) (by decide) rfl
  · exact hfield _ (by decide) (by decide) rfl
  · exact s.readReg_common e (by decide)
  · exact s.readReg_common e (by decide)
  · exact s.readReg_common e (by decide)
  · constructor <;> rintro rfl <;> exact BitVec.toNat_setWidth_of_le (by decide)
  · exact hfield _ (by decide) (by decide) rfl
  · exact hfield _ (by decide) (by decide) rfl
  · constructor <;> rintro rfl <;> exact BitVec.toNat_setWidth_of_le (by decide)
  · constructor <;> rintro rfl <;> exact BitVec.toNat_setWidth_of_le (by decide)

theorem State.hostWriteReg_idle {s : State} {e : Engine} (hidle : (s.regs e).busy = false) (n : Nat)
    (v : Word32) : s.hostWriteReg e n v = s.writeReg e n v := by
  simp [State.hostWriteReg, hidle]

theorem State.writeReg_common (s : State) (e : Engine) {n : Nat} (hn : n ∉ [8, 11, 12]) (v : Word32) :
    s.writeReg e n v = s.setRegs e ((s.regs e).writeReg n v) := by
  unfold State.writeReg
  split
  case h_4 => rfl
  all_goals exact absurd (by decide) hn

theorem EngineRegs.writeReg_of_readOnly (r : EngineRegs) {n : Nat} (hn : n ∉ [1, 5, 6]) (v : Word32) :
    r.writeReg n v = r := by
  unfold EngineRegs.writeReg
  split
  case h_4 => rfl
  all_goals exact absurd (by decide) hn

/-- Settles O48: CTRL, ARG0 and ARG1 of either engine, D_INLEN of DEC, and E_GW and E_GH of ENC take the
value; under every other number the engine's registers are written back as they are. -/
theorem hostWritesRegisterFields : Obligations.HostWritesRegisterFields := by
  rintro s turns e n v r h hidle rfl hn
  have hwrite := State.hostWriteReg_idle (s := { s with agenda := turns }) hidle n v
  refine ⟨({ s with agenda := turns } : State).writeReg e n v,
    (step_writeReg h hn).trans (congrArg _ hwrite), ?_⟩
  refine ⟨?_, ?_, ?_, ?_, ?_, ?_, ?_, ?_, ?_⟩
  · rintro rfl
    exact State.writeReg_common _ e (by decide) v
  · rintro rfl
    exact State.writeReg_common _ e (by decide) v
  · rintro rfl
    exact State.writeReg_common _ e (by decide) v
  · rintro rfl rfl
    exact ⟨rfl, storedLength_toNat v⟩
  · rintro rfl rfl
    rw [← extract_eq_ofNat]
    rfl
  · rintro rfl rfl
    rw [← extract_eq_ofNat]
    rfl
  · intro hother
    simp only [List.mem_cons, List.not_mem_nil, or_false, not_or] at hother
    rw [State.writeReg_common _ e (by simp; omega), EngineRegs.writeReg_of_readOnly _ (by simp; omega),
      State.setRegs_self]
  · rintro rfl rfl
    rfl
  · rintro (rfl | rfl) rfl <;> rfl

end Sys2Proof.Machine
end

section
/-! PROOF. The host's accesses to the spaces and tables of an idle engine (10_state.md R55, R60,
20_memory.md R71 to R75, R83, 41_decoder_sequence.md R161). -/

namespace Sys2Proof.Machine

/-! ## A write at an address that may lie outside -/

/-- The space after a write of `x` at `a`; an address outside it takes nothing (20_memory.md R83). -/
def Cells.writeInside {w : Nat} (d : BitVec w) (size : Nat) (m : List (Nat × BitVec w)) (a : Nat)
    (x : BitVec w) : List (Nat × BitVec w) := if a < size then Cells.write d m a x else m

theorem Cells.read_writeInside_same {w : Nat} {d : BitVec w} {size : Nat} {m : List (Nat × BitVec w)}
    (h : Cells.wf d size m = true) {a : Nat} (ha : a < size) (x : BitVec w) :
    Cells.read d (Cells.writeInside d size m a x) a = x := by
  rw [Cells.writeInside, if_pos ha, Cells.read_write_same h]

theorem Cells.read_writeInside_other {w : Nat} (d : BitVec w) (size : Nat) (m : List (Nat × BitVec w))
    {a b : Nat} (x : BitVec w) (hb : b ≠ a ∨ size ≤ a) :
    Cells.read d (Cells.writeInside d size m a x) b = Cells.read d m b := by
  unfold Cells.writeInside
  split
  · exact Cells.read_write_ne m x (hb.resolve_right (by omega))
  · rfl

/-- The table after a write of `x` at `a`; an address outside it takes nothing. -/
def Table.setInside {α : Type} (t : Vector α 256) (a : Nat) (x : α) : Vector α 256 :=
  if a < 256 then Table.set t (BitVec.ofNat 8 a) x else t

theorem Table.get_setInside_same {α : Type} (t : Vector α 256) {a : Nat} {i : Byte} (x : α)
    (hi : i.toNat = a) : Table.get (Table.setInside t a x) i = x := by
  subst hi
  rw [Table.setInside, if_pos i.isLt, BitVec.ofNat_toNat, BitVec.setWidth_eq, Table.get_set_same]

theorem Table.get_setInside_ne {α : Type} (t : Vector α 256) {a : Nat} {i : Byte} (x : α)
    (hi : i.toNat ≠ a) : Table.get (Table.setInside t a x) i = Table.get t i := by
  unfold Table.setInside
  split
  · next ha =>
    refine Table.get_set_ne t x fun h => hi ?_
    rw [h, BitVec.toNat_ofNat, Nat.mod_eq_of_lt ha]
  · rfl

/-! ## The writes -/

theorem State.hostWrite_inside {s : State} {space : Space} {a : Nat}
    (hidle : (s.regs space.engine).busy = false) (hwrites : space.hostWrites = true)
    (ha : a < space.size) (v : Word32) : s.hostWrite space a v = s.writeSpace space a v := by
  simp [State.hostWrite, State.mayWrite, hidle, hwrites, ha]

theorem State.hostWrite_outside (s : State) {space : Space} {a : Nat} (ha : ¬a < space.size)
    (v : Word32) : s.hostWrite space a v = s := by
  simp [State.hostWrite, State.mayWrite, ha]

theorem State.hostWrite_din {s : State} (hidle : s.dec.busy = false) (a : Nat) (v : Word32) :
    s.hostWrite .din a v = { s with dec := { s.dec with
      din := Cells.writeInside unlistedByte Config.fileCap s.dec.din a (v.extractLsb' 0 8) } } := by
  unfold Cells.writeInside
  split
  · next ha => exact State.hostWrite_inside (space := .din) hidle rfl ha v
  · next ha => exact s.hostWrite_outside (space := .din) ha v

theorem State.hostWrite_grid {s : State} (hidle : s.enc.busy = false) (a : Nat) (v : Word32) :
    s.hostWrite .grid a v = { s with enc := { s.enc with
      grid := Cells.writeInside s.par.sentinel Config.canvasSize s.enc.grid a (v.extractLsb' 0 24) } } := by
  unfold Cells.writeInside
  split
  · next ha => exact State.hostWrite_inside (space := .grid) hidle rfl ha v
  · next ha => exact s.hostWrite_outside (space := .grid) ha v

theorem State.hostWrite_aux {s : State} {e : Engine} (hidle : (s.regs e).busy = false) (a : Nat)
    (v : Word32) : s.hostWrite (.aux e) a v = s.setRegs e { s.regs e with
      aux := Cells.writeInside unlistedByte Config.auxCap (s.regs e).aux a (v.extractLsb' 0 8) } := by
  unfold Cells.writeInside
  split
  · next ha => exact State.hostWrite_inside (space := .aux e) hidle rfl ha v
  · next ha => exact (s.hostWrite_outside (space := .aux e) ha v).trans (s.setRegs_self e).symm

theorem State.hostWrite_xpal {s : State} {e : Engine} (hidle : (s.regs e).busy = false) (a : Nat)
    (v : Word32) : s.hostWrite (.xpal e) a v = s.setRegs e { s.regs e with
      xpal := Table.setInside (s.regs e).xpal a (v.extractLsb' 0 24) } := by
  unfold Table.setInside
  split
  · next ha => exact State.hostWrite_inside (space := .xpal e) hidle rfl ha v
  · next ha => exact (s.hostWrite_outside (space := .xpal e) ha v).trans (s.setRegs_self e).symm

theorem State.hostWrite_cim {s : State} {e : Engine} (hidle : (s.regs e).busy = false) (a : Nat)
    (v : Word32) : s.hostWrite (.cim e) a v = s.setRegs e { s.regs e with
      cim := Table.setInside (s.regs e).cim a
        { valid := v.getLsbD 24, colour := v.extractLsb' 0 24 } } := by
  unfold Table.setInside
  split
  · next ha => exact State.hostWrite_inside (space := .cim e) hidle rfl ha v
  · next ha => exact (s.hostWrite_outside (space := .cim e) ha v).trans (s.setRegs_self e).symm

theorem State.hostWrite_readOnly {s : State} {space : Space} (h : space.hostWrites = false) (a : Nat)
    (v : Word32) : s.hostWrite space a v = s := by
  simp [State.hostWrite, State.mayWrite, h]

/-- Bit 24 of a word, as a number. -/
theorem getLsbD_toNat (v : Word32) (i : Nat) : (v.getLsbD i).toNat = v.toNat / 2 ^ i % 2 := by
  rw [BitVec.getLsbD, Nat.toNat_testBit]

/-- The canonical form of AUX is that of the engine's registers. -/
theorem Memory.wf_aux {s : State} (h : Memory.wf s = true) (e : Engine) :
    Cells.wf unlistedByte Config.auxCap (s.regs e).aux = true := by
  simp only [Memory.wf, Bool.and_eq_true] at h
  obtain ⟨⟨⟨⟨⟨-, hdec⟩, -⟩, -⟩, henc⟩, -⟩ := h
  cases e
  · exact hdec
  · exact henc

theorem Memory.wf_din {s : State} (h : Memory.wf s = true) :
    Cells.wf unlistedByte Config.fileCap s.dec.din = true := by
  simp only [Memory.wf, Bool.and_eq_true] at h
  obtain ⟨⟨⟨⟨⟨hdin, -⟩, -⟩, -⟩, -⟩, -⟩ := h
  exact hdin

theorem Memory.wf_grid {s : State} (h : Memory.wf s = true) :
    Cells.wf s.par.sentinel Config.canvasSize s.enc.grid = true := by
  simp only [Memory.wf, Bool.and_eq_true] at h
  exact h.2

/-! ## The reads -/

theorem State.hostRead_frame (s : State) (space : Space) (a : Nat) :
    s.hostRead space a =
      { s with rdata := (s.hostRead space a).rdata, free := (s.hostRead space a).free } := by
  unfold State.hostRead
  split <;> rfl

theorem State.hostRead_refused {s : State} {space : Space} {a : Nat} (h : s.mayRead space a = false) :
    (s.hostRead space a).free = s.free + 1 := by
  rw [State.hostRead, if_neg (by simp [h])]
  rfl

theorem State.hostRead_allowed {s : State} {space : Space} {a : Nat} (h : s.mayRead space a = true) :
    (s.hostRead space a).free = s.free ∧ (s.hostRead space a).rdata = s.readSpace space a := by
  rw [State.hostRead, if_pos h]
  exact ⟨rfl, rfl⟩

/-- What an allowed read returns of a space of bytes or colours is the number that stands there. -/
theorem State.hostRead_field {s : State} {space : Space} {a w : Nat} {x : BitVec w}
    (hmay : s.mayRead space a = true) (hw : w ≤ 32) (hx : s.readSpace space a = x.setWidth 32) :
    (s.hostRead space a).free = s.free ∧ (s.hostRead space a).rdata.toNat = x.toNat := by
  obtain ⟨hfree, hdata⟩ := State.hostRead_allowed hmay
  exact ⟨hfree, (congrArg BitVec.toNat (hdata.trans hx)).trans (BitVec.toNat_setWidth_of_le hw)⟩

/-- A space but CANVAS that the host reads may be read at each of its addresses. -/
theorem State.mayRead_of_lt {s : State} {space : Space} {a : Nat}
    (hidle : (s.regs space.engine).busy = false) (hreads : space.hostReads = true)
    (ha : a < space.size) (hcanvas : space ≠ .canvas) : s.mayRead space a = true := by
  simp [State.mayRead, hidle, hreads, ha, hcanvas]

theorem State.mayRead_canvas {s : State} {a : Nat} (hidle : s.dec.busy = false)
    (ha : a < Config.canvasSize) : s.mayRead .canvas a = s.dec.inWindow a := by
  simp [State.mayRead, Space.engine, hidle, Space.hostReads, Space.size, ha]

theorem State.mayRead_of_not_hostReads {s : State} {space : Space} {a : Nat}
    (h : space.hostReads = false) : s.mayRead space a = false := by
  simp [State.mayRead, h]

theorem State.mayRead_of_size_le {s : State} {space : Space} {a : Nat} (h : space.size ≤ a) :
    s.mayRead space a = false := by
  simp [State.mayRead, Nat.not_lt.2 h]

theorem Decoder.inWindow_iff (d : Decoder) (pos : Nat) :
    d.inWindow pos = true ↔ pos % 320 < d.aw.toNat ∧ pos / 320 < d.ah.toNat := by
  rw [Decoder.inWindow, Bool.and_eq_true, decide_eq_true_iff, decide_eq_true_iff, Config.virtualWidth]

theorem State.readSpace_xpal (s : State) (e : Engine) (i : Byte) :
    s.readSpace (.xpal e) i.toNat = (Table.get (s.regs e).xpal i).setWidth 32 := by
  simp [State.readSpace]

theorem State.readSpace_apal (s : State) (e : Engine) (i : Byte) :
    s.readSpace (.apal e) i.toNat = (Table.get (s.regs e).apal i).setWidth 32 := by
  simp [State.readSpace]

theorem State.readSpace_cim (s : State) (e : Engine) (i : Byte) :
    s.readSpace (.cim e) i.toNat = CimEntry.toWord (Table.get (s.regs e).cim i) := by
  simp [State.readSpace]

theorem CimEntry.toWord_toNat (c : CimEntry) :
    (CimEntry.toWord c).toNat = c.colour.toNat + 16777216 * c.valid.toNat := by
  have hcolour : c.colour.toNat < 16777216 := c.colour.isLt
  rw [CimEntry.toWord, BitVec.toNat_setWidth_of_le (by decide), BitVec.toNat_append, Nat.shiftLeft_eq,
    BitVec.toNat_ofBool, Nat.mul_comm, ← Nat.two_pow_add_eq_or_of_lt hcolour, Nat.add_comm]

/-! ## The statement -/

/-- Settles O49: a write changes the one address named, a read returns what stands there. -/
theorem hostAccessesSpaces : Obligations.HostAccessesSpaces := by
  constructor
  · intro s turns space a v hmem h hidle
    refine ⟨_, step_write h, ?_, ?_, ?_, ?_, ?_, ?_⟩
    · rintro rfl
      rw [State.hostWrite_din (s := { s with agenda := turns }) hidle]
      refine ⟨rfl, fun ha => ?_, fun b hb => Cells.read_writeInside_other _ _ _ _ hb⟩
      have hread := Cells.read_writeInside_same (Memory.wf_din hmem) ha (v.extractLsb' 0 8)
      exact (congrArg BitVec.toNat hread).trans (extract_toNat v 8)
    · rintro rfl
      rw [State.hostWrite_grid (s := { s with agenda := turns }) hidle]
      refine ⟨rfl, fun ha => ?_, fun b hb => Cells.read_writeInside_other _ _ _ _ hb⟩
      have hread := Cells.read_writeInside_same (Memory.wf_grid hmem) ha (v.extractLsb' 0 24)
      exact (congrArg BitVec.toNat hread).trans (extract_toNat v 24)
    · rintro e rfl
      rw [State.hostWrite_aux (s := { s with agenda := turns }) (e := e) hidle, State.regs_setRegs_same]
      refine ⟨rfl, fun ha => ?_, fun b hb => Cells.read_writeInside_other _ _ _ _ hb⟩
      have hread := Cells.read_writeInside_same (Memory.wf_aux hmem e) ha (v.extractLsb' 0 8)
      exact (congrArg BitVec.toNat hread).trans (extract_toNat v 8)
    · rintro e rfl
      rw [State.hostWrite_xpal (s := { s with agenda := turns }) (e := e) hidle, State.regs_setRegs_same]
      refine ⟨rfl, fun i => ⟨fun hi => ?_, fun hi => Table.get_setInside_ne _ _ hi⟩⟩
      exact (congrArg BitVec.toNat (Table.get_setInside_same _ _ hi)).trans (extract_toNat v 24)
    · rintro e rfl
      rw [State.hostWrite_cim (s := { s with agenda := turns }) (e := e) hidle, State.regs_setRegs_same]
      refine ⟨rfl, fun i => ⟨fun hi => ?_, fun hi => Table.get_setInside_ne _ _ hi⟩⟩
      rw [Table.get_setInside_same _ _ hi]
      exact ⟨extract_toNat v 24, getLsbD_toNat v 24⟩
    · rintro (rfl | rfl | ⟨e, rfl⟩) <;> exact State.hostWrite_readOnly rfl a v
  · intro s turns space a h hidle
    have field {w : Nat} {x : BitVec w} (hmay : s.mayRead space a = true) :=
      State.hostRead_field (s := { s with agenda := turns }) (x := x) hmay
    have refused (hmay : s.mayRead space a = false) :=
      State.hostRead_refused (s := { s with agenda := turns }) hmay
    refine ⟨_, step_read h, State.hostRead_frame _ space a, ?_, ?_, ?_, ?_, ?_⟩
    · rintro rfl ha
      have hmay := State.mayRead_canvas hidle ha
      refine ⟨fun hin => field ?_ (by decide) rfl, fun hout => refused ?_⟩
      · rw [hmay, Decoder.inWindow_iff]
        exact hin
      · rw [hmay, Bool.eq_false_iff, ne_eq, Decoder.inWindow_iff]
        omega
    · rintro rfl ha
      exact field (State.mayRead_of_lt hidle rfl ha nofun) (by decide) rfl
    · rintro e rfl ha
      exact field (State.mayRead_of_lt hidle rfl ha nofun) (by decide) rfl
    · rintro e i rfl
      refine ⟨?_, ?_, ?_⟩ <;> rintro rfl
      · exact field (State.mayRead_of_lt hidle rfl i.isLt nofun) (by decide) (State.readSpace_xpal _ e i)
      · exact field (State.mayRead_of_lt hidle rfl i.isLt nofun) (by decide) (State.readSpace_apal _ e i)
      · obtain ⟨hfree, hdata⟩ := State.hostRead_allowed (s := { s with agenda := turns })
          (State.mayRead_of_lt (space := .cim e) hidle rfl i.isLt nofun)
        refine ⟨hfree, ?_⟩
        rw [hdata, State.readSpace_cim]
        exact CimEntry.toWord_toNat _
    · rintro (rfl | rfl | hge)
      · exact refused (State.mayRead_of_not_hostReads rfl)
      · exact refused (State.mayRead_of_not_hostReads rfl)
      · exact refused (State.mayRead_of_size_le hge)

end Sys2Proof.Machine
end

section
/-! PROOF. What one step answers, said once and before it is known to be a next state: the moves of the
agenda (70_reset_and_hazards.md R308, log 3) taken apart down to the parts that can stop or can write a
space. -/

namespace Sys2Proof.Machine

/-- Every answer that one step can give in `s`, the state whose agenda has moved on already. -/
inductive State.Answers (s : State) : Host.Outcome State Fault Refusal → Prop
  | unchanged : Answers s (.next s)
  | readReg (e : Engine) (n : Nat) : Answers s (.next (s.hostReadReg e n))
  | writeReg (e : Engine) (n : Nat) (v : Word32) : Answers s (.next (s.hostWriteReg e n v))
  | read (space : Space) (a : Nat) : Answers s (.next (s.hostRead space a))
  | write (space : Space) (a : Nat) (v : Word32) : Answers s (.next (s.hostWrite space a v))
  | reset : Answers s (.next s.resetEvent)
  | command {i : Instr} (hi : onStream i = false) : Answers s (exec i s)
  | reserved (e : Engine) : Answers s (s.whenIdle e (.next (s.faultEntry e .illegalCommand 0)))
  | stream {i : Instr} {d : Decoder} (hbusy : s.dec.busy = true) (hfetch : s.dec.fetchWord = .ok d)
      (hi : onStream i = true) : Answers s (exec i { s with dec := d })
  | noWord {st : Stop} (hbusy : s.dec.busy = true) (hfetch : s.dec.fetchWord = .error st) :
      Answers s (s.afterDec (.error st))
  | decFinish : Answers s (.next { s with dec := s.dec.finish })
  | encode (hbusy : s.enc.busy = true) : Answers s (s.afterEnc (s.enc.step s.par))

theorem State.answers_fetchDec (s : State) : s.Answers s.fetchDec.outcome := by
  unfold State.fetchDec
  split
  case isFalse => exact .unchanged
  next hbusy =>
  split
  case isFalse => exact .decFinish
  cases hfetch : s.dec.fetchWord with
  | ok d => exact .stream hbusy hfetch (onStream_decodeWord d.word)
  | error st => exact .noWord hbusy hfetch

theorem State.answers_fetchEnc (s : State) : s.Answers s.fetchEnc.outcome := by
  unfold State.fetchEnc
  split
  · exact .encode ‹_›
  · exact .unchanged

theorem State.answers_fetchEngine (s : State) (e : Engine) : s.Answers (s.fetchEngine e).outcome := by
  cases e with
  | dec => exact s.answers_fetchDec
  | enc => exact s.answers_fetchEnc

theorem State.answers_fetchCommand (s : State) (e : Engine) (v : Word32) :
    s.Answers (s.fetchCommand e v).outcome := by
  unfold State.fetchCommand
  cases hc : decodeCode e (v.extractLsb' 0 8) with
  | ok i =>
    simp only [decode, hc]
    exact .command (onStream_of_decodeCode hc).1
  | error err =>
    simp only [decode, hc]
    exact .reserved e

theorem State.answers_fetchHost (s : State) (a : HostAccess) : s.Answers (s.fetchHost a).outcome := by
  match a with
  | .readReg e n => exact .readReg e n
  | .writeReg e 0 v => exact s.answers_fetchCommand e v
  | .writeReg e (n + 1) v => exact .writeReg e (n + 1) v
  | .read space a => exact .read space a
  | .write space a v => exact .write space a v

/-- Every step moves the agenda on and gives one of these answers. -/
theorem step_answers (s : State) :
    ∃ turns, State.Answers { s with agenda := turns } (step s) := by
  rw [step_eq_outcome]
  unfold State.fetch
  split
  · exact ⟨_, State.answers_fetchHost _ _⟩
  · exact ⟨_, State.answers_fetchEngine _ _⟩
  · next rest _ =>
    split
    · exact ⟨s.agenda, s.answers_fetchEngine _⟩
    · exact ⟨rest, .unchanged⟩
  · exact ⟨_, .reset⟩
  · split
    · exact ⟨s.agenda, s.answers_fetchDec⟩
    · exact ⟨s.agenda, s.answers_fetchEnc⟩

end Sys2Proof.Machine
end

section
/-! PROOF. Every step keeps every space in canonical form, inside its size (20_memory.md R70, R83). A write
goes through an operation that checks its address, so this needs no other invariant. -/

namespace Sys2Proof.Machine

/-! ## The spaces of one engine -/

/-- The spaces of DEC are in canonical form. -/
def Decoder.MemoryOk (sent : Colour) (d : Decoder) : Prop :=
  Cells.wf unlistedByte Config.fileCap d.din = true ∧ Cells.wf unlistedByte Config.auxCap d.aux = true ∧
    Cells.wf sent Config.canvasSize d.canvas = true

/-- The spaces of ENC are in canonical form. -/
def Encoder.MemoryOk (sent : Colour) (e : Encoder) : Prop :=
  Cells.wf unlistedByte Config.fileCap e.eout = true ∧ Cells.wf unlistedByte Config.auxCap e.aux = true ∧
    Cells.wf sent Config.canvasSize e.grid = true

/-- The spaces of both engines are in canonical form. -/
def State.MemoryOk (s : State) : Prop :=
  s.dec.MemoryOk s.par.sentinel ∧ s.enc.MemoryOk s.par.sentinel

theorem State.memoryOk_iff {s : State} : s.MemoryOk ↔ Memory.wf s = true := by
  simp only [State.MemoryOk, Decoder.MemoryOk, Encoder.MemoryOk, Memory.wf, Bool.and_eq_true, and_assoc]

theorem State.MemoryOk.aux {s : State} (hs : s.MemoryOk) (e : Engine) :
    Cells.wf unlistedByte Config.auxCap (s.regs e).aux = true :=
  Memory.wf_aux (State.memoryOk_iff.1 hs) e

theorem State.MemoryOk.setRegs {s : State} {e : Engine} {r : EngineRegs} (hs : s.MemoryOk)
    (haux : Cells.wf unlistedByte Config.auxCap r.aux = true) : (s.setRegs e r).MemoryOk := by
  obtain ⟨⟨hdin, hauxDec, hcanvas⟩, heout, hauxEnc, hgrid⟩ := hs
  cases e with
  | dec => exact ⟨⟨hdin, haux, hcanvas⟩, heout, hauxEnc, hgrid⟩
  | enc => exact ⟨⟨hdin, hauxDec, hcanvas⟩, heout, haux, hgrid⟩

/-! ## Faults -/

theorem State.MemoryOk.faultEntry {s : State} (hs : s.MemoryOk) (e : Engine) (c : Cause) (epc : Nat) :
    (s.faultEntry e c epc).MemoryOk := by
  cases e with
  | dec => exact hs
  | enc => exact hs

/-- The free contents of CANVAS are put into canonical form (log 8). -/
theorem State.MemoryOk.spoilDec {s : State} (hs : s.MemoryOk) : s.spoilDec.MemoryOk := by
  obtain ⟨⟨hdin, haux, -⟩, henc⟩ := hs
  exact ⟨⟨hdin, haux, Cells.wf_ofList _⟩, henc⟩

/-- The free contents of EOUT are put into canonical form (log 8). -/
theorem State.MemoryOk.spoilEnc {s : State} (hs : s.MemoryOk) : s.spoilEnc.MemoryOk := by
  obtain ⟨hdec, -, haux, hgrid⟩ := hs
  exact ⟨hdec, Cells.wf_ofList _, haux, hgrid⟩

/-- A part of DEC's RUN keeps the spaces if it does so when it ends without a fault. -/
theorem State.MemoryOk.afterDec {s t : State} {r : Except Stop Decoder} (hs : s.MemoryOk)
    (hr : ∀ d, r = .ok d → d.MemoryOk s.par.sentinel) (h : s.afterDec r = .next t) : t.MemoryOk := by
  obtain ⟨d, hd, rfl⟩ | ⟨c, epc, -, rfl⟩ := State.afterDec_next h
  · exact ⟨hr d hd, hs.2⟩
  · exact (hs.faultEntry .dec c epc).spoilDec

/-- The same for a part of ENC's RUN. -/
theorem State.MemoryOk.afterEnc {s t : State} {r : Except Stop Encoder} (hs : s.MemoryOk)
    (hr : ∀ e, r = .ok e → e.MemoryOk s.par.sentinel) (h : s.afterEnc r = .next t) : t.MemoryOk := by
  obtain ⟨e, he, rfl⟩ | ⟨c, epc, -, rfl⟩ := State.afterEnc_next h
  · exact ⟨hs.1, hr e he⟩
  · exact (hs.faultEntry .enc c epc).spoilEnc

/-! ## The accesses of the host -/

theorem EngineRegs.writeReg_aux (r : EngineRegs) (n : Nat) (v : Word32) : (r.writeReg n v).aux = r.aux := by
  unfold EngineRegs.writeReg
  split <;> rfl

theorem State.MemoryOk.hostWriteReg {s : State} (hs : s.MemoryOk) (e : Engine) (n : Nat) (v : Word32) :
    (s.hostWriteReg e n v).MemoryOk := by
  unfold State.hostWriteReg
  split
  · exact hs
  · unfold State.writeReg
    split
    · exact hs
    · exact hs
    · exact hs
    · exact hs.setRegs ((EngineRegs.writeReg_aux _ n v).symm ▸ hs.aux e)

theorem State.lt_size_of_mayWrite {s : State} {space : Space} {a : Nat} (h : s.mayWrite space a = true) :
    a < space.size := by
  simp only [State.mayWrite, Bool.and_eq_true, decide_eq_true_eq] at h
  exact h.2

theorem State.MemoryOk.hostWrite {s : State} (hs : s.MemoryOk) (space : Space) (a : Nat) (v : Word32) :
    (s.hostWrite space a v).MemoryOk := by
  unfold State.hostWrite
  split
  case isFalse => exact hs
  next hmay =>
  have ha := State.lt_size_of_mayWrite hmay
  cases space with
  | din => exact ⟨⟨wf_memWrite8 hs.1.1 ha _, hs.1.2⟩, hs.2⟩
  | grid => exact ⟨hs.1, hs.2.1, hs.2.2.1, Cells.wf_write hs.2.2.2 ha _⟩
  | aux e => exact hs.setRegs (wf_memWrite8 (hs.aux e) ha _)
  | xpal e | cim e => exact hs.setRegs (hs.aux e)
  | canvas | eout | apal => exact hs

theorem State.MemoryOk.hostReadReg {s : State} (hs : s.MemoryOk) (e : Engine) (n : Nat) :
    (s.hostReadReg e n).MemoryOk := by
  unfold State.hostReadReg
  split
  · exact hs
  · exact hs

theorem State.MemoryOk.hostRead {s : State} (hs : s.MemoryOk) (space : Space) (a : Nat) :
    (s.hostRead space a).MemoryOk := by
  unfold State.hostRead
  split
  · exact hs
  · exact hs

theorem State.MemoryOk.resetEvent (s : State) : s.resetEvent.MemoryOk :=
  ⟨⟨rfl, rfl, rfl⟩, rfl, rfl, rfl⟩

/-! ## The host commands -/

/-- The set-up of a decode reads DIN and empties CANVAS (R158). -/
theorem Decoder.MemoryOk.setup {sent : Colour} {table : Vector DacColour 58} {d d' : Decoder}
    (hd : d.MemoryOk sent) (h : d.setup table = .ok d') : d'.MemoryOk sent := by
  unfold Decoder.setup at h
  obtain ⟨d1, h1, h⟩ := except_bind_ok h
  obtain ⟨d2, h2, h⟩ := except_bind_ok h
  obtain ⟨d3, h3, h⟩ := except_bind_ok h
  obtain ⟨d4, h4, h⟩ := except_bind_ok h
  cases h
  obtain ⟨_, _, _, _, rfl⟩ := Decoder.readHeader_ok h1
  obtain ⟨rfl, -⟩ := Decoder.checkHeader_ok h2
  obtain ⟨_, rfl⟩ := Decoder.selectPalette_ok h3
  obtain ⟨_, hpatch⟩ := Decoder.patchActive_eq table _
  rw [hpatch] at h4
  obtain ⟨-, rfl⟩ := Decoder.boundRegion_ok h4
  exact ⟨hd.1, hd.2.1, rfl⟩

/-- The set-up of an encode writes no space. -/
theorem Encoder.MemoryOk.setup {sent : Colour} {e e' : Encoder} (he : e.MemoryOk sent)
    (h : e.setup = .ok e') : e'.MemoryOk sent := by
  unfold Encoder.setup at h
  split at h
  · cases h
  split at h <;> cases h
  exact he

theorem HostEffect.memoryOk {s t : State} {e : Engine} (hs : s.MemoryOk) (h : HostEffect s e t) :
    t.MemoryOk := by
  cases h with
  | unchanged => exact hs
  | acknowledged hidle =>
    cases e with
    | dec => exact hs
    | enc => exact hs
  | table r hidle hstatus haux => exact hs.setRegs (haux (hs.aux e))
  | tableFaulted c hidle =>
    rw [State.tableFault, State.regs_setRegs_same, State.setRegs_setRegs]
    exact hs.setRegs (hs.aux e)
  | runDec d hidle hd => exact ⟨hs.1.setup hd, hs.2⟩
  | runDecFaulted c epc => exact (hs.faultEntry .dec c epc).spoilDec
  | runEnc d hidle hd => exact ⟨hs.1, hs.2.setup hd⟩
  | runEncFaulted c epc => exact (hs.faultEntry .enc c epc).spoilEnc

/-! ## The stream commands -/

theorem Decoder.MemoryOk.fetchWord {sent : Colour} {d d' : Decoder} (hd : d.MemoryOk sent)
    (h : d.fetchWord = .ok d') : d'.MemoryOk sent := by
  rcases d.fetchWord_cases with ⟨-, ho⟩ | ⟨-, -, ho⟩ | ⟨-, -, ho⟩ <;> rw [ho] at h <;> cases h
  exact hd

theorem Decoder.MemoryOk.readIndex {sent : Colour} {d d' : Decoder} {pc0 : Nat} (hd : d.MemoryOk sent)
    (h : d.readIndex pc0 = .ok d') : d'.MemoryOk sent := by
  obtain ⟨-, _, rfl⟩ := Decoder.readIndex_ok h
  exact hd

theorem Decoder.MemoryOk.stamp {sent : Colour} {d d' : Decoder} {pc0 : Nat} {i : Byte}
    (hd : d.MemoryOk sent) (h : d.stamp sent pc0 i = .ok d') : d'.MemoryOk sent := by
  have hcanvas := Decoder.stamp_keeps_wf hd.2.2 h
  obtain ⟨_, _, rfl⟩ := Decoder.stamp_ok h
  exact ⟨hd.1, hd.2.1, hcanvas⟩

theorem Decoder.MemoryOk.repeatLoop {sent : Colour} {pc0 : Nat} {i : Byte} (n : Nat) {d d' : Decoder}
    (hd : d.MemoryOk sent) (h : Decoder.repeatLoop sent pc0 i n d = .ok d') : d'.MemoryOk sent := by
  induction n generalizing d with
  | zero => cases h; exact hd
  | succ n ih =>
    rw [Decoder.repeatLoop] at h
    split at h
    case h_2 => cases h
    next hs => exact ih (hd.stamp hs) h

theorem Decoder.MemoryOk.copyLoop {sent : Colour} {pc0 : Nat} (n : Nat) {d d' : Decoder}
    (hd : d.MemoryOk sent) (h : Decoder.copyLoop sent pc0 n d = .ok d') : d'.MemoryOk sent := by
  induction n generalizing d with
  | zero => cases h; exact hd
  | succ n ih =>
    rw [Decoder.copyLoop] at h
    split at h
    case h_2 => cases h
    next hr =>
    split at h
    case h_2 => cases h
    next hs => exact ih ((hd.readIndex hr).stamp hs) h

theorem State.MemoryOk.execStream {i : Instr} {s t : State} (hs : s.MemoryOk) (hi : onStream i = true)
    (h : exec i s = .next t) : t.MemoryOk := by
  cases i with
  | eop n | skip n => cases h; exact hs
  | repeatRun n =>
    refine hs.afterDec (fun d hd => ?_) h
    split at hd
    case h_2 => cases hd
    next hr => exact (hs.1.readIndex hr).repeatLoop n hd
  | copyRun n => exact hs.afterDec (fun d hd => hs.1.copyLoop n hd) h
  | _ => cases hi

/-! ## The steps of an encode -/

theorem Encoder.MemoryOk.outWord {sent : Colour} {e e' : Encoder} {a : Nat} {v : Word16}
    (he : e.MemoryOk sent) (h : e.outWord a v = .ok e') : e'.MemoryOk sent := by
  unfold Encoder.outWord at h
  split at h <;> cases h
  exact ⟨wf_memWrite16 he.1 ‹_› v, he.2⟩

theorem Encoder.MemoryOk.emit8 {sent : Colour} {e e' : Encoder} {v : Byte} (he : e.MemoryOk sent)
    (h : e.emit8 v = .ok e') : e'.MemoryOk sent := by
  rcases e.emit8_cases v with ⟨-, ho⟩ | ⟨-, -, ho⟩ | ⟨-, ha, ho⟩ <;> rw [ho] at h <;> cases h
  exact ⟨wf_memWrite8 he.1 ha v, he.2⟩

theorem Encoder.MemoryOk.emit16 {sent : Colour} {e e' : Encoder} {v : Word16} (he : e.MemoryOk sent)
    (h : e.emit16 v = .ok e') : e'.MemoryOk sent := by
  rcases e.emit16_cases v with ⟨-, ho⟩ | ⟨-, -, ho⟩ | ⟨-, ha, ho⟩ <;> rw [ho] at h <;> cases h
  exact ⟨wf_memWrite16 he.1 ha v, he.2⟩

/-- The placeholder's bytes are not written yet (log 16). -/
theorem Encoder.MemoryOk.reserve16 {sent : Colour} {e e' : Encoder} (he : e.MemoryOk sent)
    (h : e.reserve16 = .ok e') : e'.MemoryOk sent := by
  unfold Encoder.reserve16 at h
  split at h <;> cases h
  exact he

theorem Encoder.MemoryOk.skipLoop {sent : Colour} (k : Nat) {e : Encoder} (he : e.MemoryOk sent) :
    (Encoder.skipLoop sent k e).MemoryOk sent := by
  induction k generalizing e with
  | zero => exact he
  | succ k ih =>
    rw [Encoder.skipLoop]
    split
    · exact ih he
    · exact he

theorem Encoder.MemoryOk.skipRun {sent : Colour} {e e' : Encoder} (he : e.MemoryOk sent)
    (h : e.skipRun sent = .ok e') : e'.MemoryOk sent := by
  have hloop : (Encoder.skipLoop sent Config.countMax { e with n := 0 }).MemoryOk sent :=
    Encoder.MemoryOk.skipLoop (e := { e with n := 0 }) _ he
  unfold Encoder.skipRun at h
  dsimp only at h
  split at h
  · exact hloop.emit16 h
  · cases h
    exact hloop

/-- What every emitted index and the move after it keep, CopyRun's loop keeps (R219). -/
theorem Encoder.copyLoop_keeps {sent : Colour} {P : Encoder → Prop}
    (hemit : ∀ e e' v, P e → e.emit8 v = .ok e' → P { e' with n := e'.n + 1, pos := e'.pos + 4 })
    (k : Nat) {e e' : Encoder} (he : P e) (h : Encoder.copyLoop sent k e = .ok e') : P e' := by
  induction k generalizing e with
  | zero => cases h; exact he
  | succ k ih =>
    rw [Encoder.copyLoop] at h
    split at h
    case isFalse => cases h; exact he
    split at h
    case h_1 => cases h
    split at h
    case h_2 => cases h
    next e1 he1 => exact ih (hemit e e1 _ he he1) h

theorem Encoder.MemoryOk.copyLoop {sent : Colour} (k : Nat) {e e' : Encoder} (he : e.MemoryOk sent)
    (h : Encoder.copyLoop sent k e = .ok e') : e'.MemoryOk sent := by
  refine Encoder.copyLoop_keeps (fun e1 e2 v he1 hemit => ?_) k he h
  have he2 : e2.MemoryOk sent := he1.emit8 hemit
  exact he2

theorem Encoder.MemoryOk.copyRun {sent : Colour} {e e' : Encoder} (he : e.MemoryOk sent)
    (h : e.copyRun sent = .ok e') : e'.MemoryOk sent := by
  rw [Encoder.copyRun] at h
  split at h
  case h_2 => cases h
  next e1 hreserve =>
  split at h
  case h_2 => cases h
  next e2 hloop =>
  have he1 : e1.MemoryOk sent := he.reserve16 hreserve
  have he2 : e2.MemoryOk sent := Encoder.MemoryOk.copyLoop (e := { e1 with n := 0 }) _ he1 hloop
  exact he2.outWord h

/-- The header's words stand at the fixed offsets 0 to 7 of EOUT (R225). -/
theorem Encoder.MemoryOk.writeHeader {sent : Colour} {e : Encoder} (he : e.MemoryOk sent) :
    e.writeHeader.MemoryOk sent :=
  ⟨wf_memWrite16 (wf_memWrite16 (wf_memWrite16 (wf_memWrite16 he.1 (by decide) _) (by decide) _)
    (by decide) _) (by decide) _, he.2⟩

theorem Encoder.MemoryOk.embedPalette {sent : Colour} {e : Encoder} (he : e.MemoryOk sent)
    (table : Vector DacColour 58) : (e.embedPalette table).MemoryOk sent := by
  unfold Encoder.embedPalette
  split
  · refine ⟨?_, he.2⟩
    dsimp only
    exact wf_embedBytes _ he.1
  · exact he

theorem Encoder.MemoryOk.endPlane {sent : Colour} {table : Vector DacColour 58} {e e' : Encoder}
    (he : e.MemoryOk sent) (h : e.endPlane table = .ok e') : e'.MemoryOk sent := by
  rw [Encoder.endPlane] at h
  split at h
  case h_2 => cases h
  next e1 hemit =>
  have he1 := he.emit16 hemit
  dsimp only at h
  split at h <;> cases h
  · exact he1
  · exact he1.writeHeader.embedPalette table

theorem Encoder.MemoryOk.rowStep {sent : Colour} {e e' : Encoder} (he : e.MemoryOk sent)
    (h : e.rowStep sent = .ok e') : e'.MemoryOk sent := by
  have hscan : (e.scanRow sent).MemoryOk sent := he
  unfold Encoder.rowStep at h
  dsimp only at h
  split at h
  case h_2 => cases h
  next e2 hskip =>
  split at h <;> cases h
  next e3 hhide =>
  have he3 : e3.MemoryOk sent := (hscan.outWord hskip).outWord hhide
  exact he3

theorem Encoder.MemoryOk.step {e e' : Encoder} {par : Config.Params} (he : e.MemoryOk par.sentinel)
    (h : e.step par = .ok e') : e'.MemoryOk par.sentinel := by
  unfold Encoder.step at h
  split at h
  · split at h
    · split at h
      · exact he.skipRun h
      · exact he.copyRun h
    · exact he.endPlane h
  · split at h
    · exact he.rowStep h
    · cases h
      exact he

/-! ## The statement -/

theorem State.Answers.memoryOk {s t : State} {o : Host.Outcome State Fault Refusal} (hs : s.MemoryOk)
    (h : s.Answers o) (ho : o = .next t) : t.MemoryOk := by
  cases h with
  | unchanged => cases ho; exact hs
  | readReg e n => cases ho; exact hs.hostReadReg e n
  | writeReg e n v => cases ho; exact hs.hostWriteReg e n v
  | read space a => cases ho; exact hs.hostRead space a
  | write space a v => cases ho; exact hs.hostWrite space a v
  | reset => cases ho; exact .resetEvent s
  | command hi => exact (exec_host hi ho).memoryOk hs
  | reserved e =>
    obtain rfl | ⟨-, hnext⟩ := State.whenIdle_next ho
    · exact hs
    · cases hnext
      exact hs.faultEntry e _ 0
  | @stream i d hbusy hfetch hi =>
    have hfetched : State.MemoryOk { s with dec := d } := ⟨hs.1.fetchWord hfetch, hs.2⟩
    exact hfetched.execStream hi ho
  | noWord hbusy hfetch => exact hs.afterDec (fun d hd => by cases hd) ho
  | decFinish => cases ho; exact hs
  | encode hbusy => exact hs.afterEnc (fun e he => hs.2.step he) ho

/-- Settles O53: every answer that is a next state keeps the spaces of both engines. -/
theorem stepKeepsMemoryCanonical : Obligations.StepKeepsMemoryCanonical := by
  intro s t hs h
  obtain ⟨turns, hanswer⟩ := step_answers s
  have hok : State.MemoryOk { s with agenda := turns } := State.memoryOk_iff.2 hs
  exact State.memoryOk_iff.1 (hanswer.memoryOk hok h)

end Sys2Proof.Machine
end

section
/-! PROOF. From a state that meets the invariant no step stops (20_memory.md R83, 70_reset_and_hazards.md
R310): the region of a decode ends inside DIN, and the longest file of an encode, 67111 bytes, just fits
EOUT. -/

namespace Sys2Proof.Machine

/-- A part of a sequence ends or raises a fault of the spec; it does not stop the model. -/
def Unstopped {α : Type} (r : Except Stop α) : Prop := ∀ f, r ≠ .error (.stopped f)

/-- A step's answer is a next state. -/
def HasNext (o : Host.Outcome State Fault Refusal) : Prop := ∃ t, o = .next t

theorem unstopped_ok {α : Type} (a : α) : Unstopped (.ok a : Except Stop α) := nofun

theorem unstopped_raised {α : Type} (c : Cause) (epc : Nat) :
    Unstopped (.error (.raised c epc) : Except Stop α) := nofun

theorem Unstopped.bind {α β : Type} {x : Except Stop α} {f : α → Except Stop β} (hx : Unstopped x)
    (hf : ∀ a, x = .ok a → Unstopped (f a)) : Unstopped (x >>= f) := by
  cases x with
  | ok a => exact hf a rfl
  | error st => exact fun f h => hx f (by cases h; rfl)

/-- A sequence that goes on with the stop of an unstopped part is unstopped too. -/
theorem Unstopped.error {α β : Type} {x : Except Stop α} {st : Stop} (hx : Unstopped x)
    (hst : x = .error st) : Unstopped (.error st : Except Stop β) := by
  subst hst
  exact fun f h => hx f (by cases h; rfl)

theorem State.hasNext_afterDec {s : State} {r : Except Stop Decoder} (hr : Unstopped r) :
    HasNext (s.afterDec r) := by
  match r, hr with
  | .ok d, _ => exact ⟨_, s.afterDec_ok d⟩
  | .error (.raised c epc), _ => exact ⟨_, s.afterDec_raised c epc⟩
  | .error (.stopped f), hr => exact absurd rfl (hr f)

theorem State.hasNext_afterEnc {s : State} {r : Except Stop Encoder} (hr : Unstopped r) :
    HasNext (s.afterEnc r) := by
  match r, hr with
  | .ok e, _ => exact ⟨_, s.afterEnc_ok e⟩
  | .error (.raised c epc), _ => exact ⟨_, s.afterEnc_raised c epc⟩
  | .error (.stopped f), hr => exact absurd rfl (hr f)

/-! ## The host commands, in any state -/

theorem State.hasNext_whenIdle {s : State} {e : Engine} {k : Host.Outcome State Fault Refusal}
    (hk : HasNext k) : HasNext (s.whenIdle e k) := by
  unfold State.whenIdle
  split
  · exact ⟨s, rfl⟩
  · exact hk

theorem State.hasNext_tableCommand (s : State) (e : Engine) (body : EngineRegs → Except Cause EngineRegs) :
    HasNext (s.tableCommand e body) := by
  rcases s.tableCommand_cases e body with ⟨-, ho⟩ | ⟨-, _, -, ho⟩ | ⟨-, _, -, ho⟩ <;> exact ⟨_, ho⟩

theorem Decoder.readHeader_unstopped (d : Decoder) : Unstopped d.readHeader := by
  unfold Decoder.readHeader
  split
  · exact unstopped_raised _ _
  · exact unstopped_ok _

theorem Decoder.checkHeader_unstopped (d : Decoder) : Unstopped d.checkHeader := by
  unfold Decoder.checkHeader
  split
  · exact unstopped_raised _ _
  split
  · exact unstopped_raised _ _
  split
  · exact unstopped_raised _ _
  · exact unstopped_ok _

theorem Decoder.ingestPalette_unstopped (d : Decoder) : Unstopped d.ingestPalette := by
  unfold Decoder.ingestPalette
  split
  · exact unstopped_raised _ _
  split
  · exact unstopped_raised _ _
  · exact unstopped_ok _

theorem Decoder.selectPalette_unstopped (d : Decoder) : Unstopped d.selectPalette := by
  unfold Decoder.selectPalette
  split
  · split
    · exact unstopped_ok _
    · exact unstopped_raised _ _
  · exact d.ingestPalette_unstopped

theorem Decoder.boundRegion_unstopped (d : Decoder) : Unstopped d.boundRegion := by
  unfold Decoder.boundRegion
  dsimp only
  split
  · exact unstopped_raised _ _
  · exact unstopped_ok _

/-- The set-up of a decode reads below `D_INLEN` alone, so it never stops. -/
theorem Decoder.setup_unstopped (table : Vector DacColour 58) (d : Decoder) :
    Unstopped (d.setup table) :=
  (Decoder.readHeader_unstopped _).bind fun d1 _ =>
    d1.checkHeader_unstopped.bind fun d2 _ =>
      d2.selectPalette_unstopped.bind fun _ _ =>
        (Decoder.boundRegion_unstopped _).bind fun _ _ => unstopped_ok _

theorem Encoder.setup_unstopped (e : Encoder) : Unstopped e.setup := by
  unfold Encoder.setup
  split
  · exact unstopped_raised _ _
  split
  · exact unstopped_raised _ _
  · exact unstopped_ok _

theorem exec_host_hasNext {i : Instr} (hi : onStream i = false) (s : State) : HasNext (exec i s) := by
  unfold exec
  cases i with
  | eop | skip | repeatRun | copyRun => cases hi
  | nop e => exact ⟨s, rfl⟩
  | runDec => exact State.hasNext_whenIdle (State.hasNext_afterDec (Decoder.setup_unstopped _ _))
  | runEnc => exact State.hasNext_whenIdle (State.hasNext_afterEnc (Encoder.setup_unstopped _))
  | clear e => exact State.hasNext_whenIdle ⟨_, rfl⟩
  | _ => exact State.hasNext_tableCommand ..

/-! ## The stream of a decode whose region ends inside DIN -/

theorem Decoder.fetchWord_unstopped {d : Decoder} (hcap : d.csend.toNat ≤ Config.fileCap) :
    Unstopped d.fetchWord := by
  rcases d.fetchWord_cases with ⟨-, ho⟩ | ⟨hroom, hout, -⟩ | ⟨-, -, ho⟩
  · rw [ho]; exact unstopped_raised _ _
  · omega
  · rw [ho]; exact unstopped_ok _

theorem Decoder.readIndex_unstopped {d : Decoder} (hcap : d.csend.toNat ≤ Config.fileCap) (pc0 : Nat) :
    Unstopped (d.readIndex pc0) := by
  rcases d.readIndex_cases pc0 with ⟨-, ho⟩ | ⟨hroom, hout, -⟩ | ⟨-, -, ho⟩
  · rw [ho]; exact unstopped_raised _ _
  · omega
  · rw [ho]; exact unstopped_ok _

theorem Decoder.stamp_unstopped (d : Decoder) (sent : Colour) (pc0 : Nat) (i : Byte) :
    Unstopped (d.stamp sent pc0 i) := by
  rcases d.stamp_cases sent pc0 i with ⟨-, ho⟩ | ⟨-, ho⟩ <;> rw [ho]
  · exact unstopped_raised _ _
  · exact unstopped_ok _

theorem Decoder.repeatLoop_unstopped (sent : Colour) (pc0 : Nat) (i : Byte) (n : Nat) (d : Decoder) :
    Unstopped (Decoder.repeatLoop sent pc0 i n d) := by
  induction n generalizing d with
  | zero => exact unstopped_ok d
  | succ n ih =>
    rw [Decoder.repeatLoop]
    split
    · exact ih _
    · next hs => exact (d.stamp_unstopped sent pc0 i).error hs

theorem Decoder.copyLoop_unstopped (sent : Colour) (pc0 n : Nat) {d : Decoder}
    (hcap : d.csend.toNat ≤ Config.fileCap) : Unstopped (Decoder.copyLoop sent pc0 n d) := by
  induction n generalizing d with
  | zero => exact unstopped_ok d
  | succ n ih =>
    rw [Decoder.copyLoop]
    split
    case h_2 hr => exact (Decoder.readIndex_unstopped hcap pc0).error hr
    next hr =>
    split
    case h_2 hs => exact (Decoder.stamp_unstopped _ _ _ _).error hs
    next hs =>
    obtain ⟨-, _, rfl⟩ := Decoder.readIndex_ok hr
    obtain ⟨_, _, rfl⟩ := Decoder.stamp_ok hs
    exact ih hcap

theorem exec_stream_hasNext {i : Instr} (hi : onStream i = true) {s : State}
    (hcap : s.dec.csend.toNat ≤ Config.fileCap) : HasNext (exec i s) := by
  cases i with
  | eop n | skip n => exact ⟨_, rfl⟩
  | repeatRun n =>
    refine State.hasNext_afterDec ?_
    split
    · exact Decoder.repeatLoop_unstopped _ _ _ _ _
    · next hr => exact (Decoder.readIndex_unstopped hcap _).error hr
  | copyRun n => exact State.hasNext_afterDec (Decoder.copyLoop_unstopped _ _ n hcap)
  | _ => cases hi

theorem Decoder.RegionOk.csend_le {d : Decoder} (h : d.RegionOk) (hbusy : d.busy = true) :
    d.csend.toNat ≤ Config.fileCap := by
  obtain ⟨hcap, hregion⟩ := h
  obtain ⟨-, -, -, -, -, -, hin, -⟩ := hregion hbusy
  exact hin.trans hcap

theorem Decoder.fetchWord_csend {d d' : Decoder} (h : d.fetchWord = .ok d') : d'.csend = d.csend := by
  rcases d.fetchWord_cases with ⟨-, ho⟩ | ⟨-, -, ho⟩ | ⟨-, -, ho⟩ <;> rw [ho] at h <;> cases h
  rfl

/-! ## The stream of an encode -/

/-- The base and the largest stream end 800 bytes before the end of EOUT. -/
theorem Encoder.StreamOk.limit_le {e : Encoder} (h : e.StreamOk) :
    e.base.toNat + Config.streamMax + Config.descriptorBytes ≤ Config.fileCap := by
  have hbase := h.1
  simp only [Config.headerBytes, Config.paletteBytes, Config.streamMax, Config.descriptorBytes,
    Config.fileCap] at *
  omega

theorem Encoder.outWord_unstopped {e : Encoder} {a : Nat} (ha : a + 1 < Config.fileCap) (v : Word16) :
    Unstopped (e.outWord a v) := by
  rw [Encoder.outWord, if_pos ha]
  exact unstopped_ok _

/-- Bytes that fit the stream fit EOUT. -/
theorem Encoder.StreamOk.lt_of_fits {e : Encoder} (h : e.StreamOk) {k : Nat} (hfits : e.fits k = true) :
    e.wp.toNat + k < Config.fileCap := by
  have hroom : e.wp.toNat + k ≤ e.base.toNat + Config.streamMax := of_decide_eq_true hfits
  have hlimit := h.limit_le
  simp only [Config.descriptorBytes] at hlimit
  omega

theorem Encoder.emit8_unstopped {e : Encoder} (h : e.StreamOk) (v : Byte) : Unstopped (e.emit8 v) := by
  rcases e.emit8_cases v with ⟨-, ho⟩ | ⟨hfits, hout, -⟩ | ⟨-, -, ho⟩
  · rw [ho]; exact unstopped_raised _ _
  · have hin := h.lt_of_fits hfits
    omega
  · rw [ho]; exact unstopped_ok _

theorem Encoder.emit16_unstopped {e : Encoder} (h : e.StreamOk) (v : Word16) :
    Unstopped (e.emit16 v) := by
  rcases e.emit16_cases v with ⟨-, ho⟩ | ⟨hfits, hout, -⟩ | ⟨-, -, ho⟩
  · rw [ho]; exact unstopped_raised _ _
  · have hin := h.lt_of_fits hfits
    omega
  · rw [ho]; exact unstopped_ok _

theorem Encoder.reserve16_unstopped (e : Encoder) : Unstopped e.reserve16 := by
  unfold Encoder.reserve16
  split
  · exact unstopped_ok _
  · exact unstopped_raised _ _

theorem Encoder.skipRun_unstopped {e : Encoder} (h : e.StreamOk) (sent : Colour) :
    Unstopped (e.skipRun sent) := by
  have hloop : (Encoder.skipLoop sent Config.countMax { e with n := 0 }).StreamOk :=
    (Encoder.skipLoop_walks sent Config.countMax { e with n := 0 }).stream h
  unfold Encoder.skipRun
  dsimp only
  split
  · exact Encoder.emit16_unstopped hloop _
  · exact unstopped_ok _

theorem Encoder.copyLoop_unstopped (sent : Colour) (k : Nat) {e : Encoder} (h : e.StreamOk) :
    Unstopped (Encoder.copyLoop sent k e) := by
  induction k generalizing e with
  | zero => exact unstopped_ok e
  | succ k ih =>
    rw [Encoder.copyLoop]
    split
    case isFalse => exact unstopped_ok e
    split
    case h_1 => exact unstopped_raised _ _
    split
    case h_2 hemit => exact (Encoder.emit8_unstopped h _).error hemit
    next e1 hemit =>
    have h1 : e1.StreamOk := (Encoder.emit8_ok hemit).1.stream h
    exact ih (e := { e1 with n := e1.n + 1, pos := e1.pos + 4 }) h1

theorem Encoder.emit8_ph {e e' : Encoder} {v : Byte} (h : e.emit8 v = .ok e') : e'.ph = e.ph := by
  rcases e.emit8_cases v with ⟨-, ho⟩ | ⟨-, -, ho⟩ | ⟨-, -, ho⟩ <;> rw [ho] at h <;> cases h
  rfl

/-- The copied indices leave the place of the count word alone (R219, R220). -/
theorem Encoder.copyLoop_ph {sent : Colour} (k : Nat) {e e' : Encoder}
    (h : Encoder.copyLoop sent k e = .ok e') : e'.ph = e.ph :=
  Encoder.copyLoop_keeps (P := fun x => x.ph = e.ph)
    (fun _ _ _ hx hemit => (Encoder.emit8_ph hemit).trans hx) k rfl h

theorem Encoder.reserve16_ph {e e' : Encoder} (h : e.reserve16 = .ok e') :
    e.fits 2 = true ∧ e'.ph = e.wp := by
  unfold Encoder.reserve16 at h
  split at h <;> cases h
  exact ⟨‹_›, rfl⟩

/-- The count word goes where two bytes fitted the stream. -/
theorem Encoder.copyRun_unstopped {e : Encoder} (h : e.StreamOk) (sent : Colour) :
    Unstopped (e.copyRun sent) := by
  rw [Encoder.copyRun]
  split
  case h_2 hreserve => exact e.reserve16_unstopped.error hreserve
  next e1 hreserve =>
  have h1 : e1.StreamOk := (Encoder.reserve16_ok hreserve).stream h
  split
  case h_2 hloop => exact (Encoder.copyLoop_unstopped (e := { e1 with n := 0 }) _ _ h1).error hloop
  next e2 hloop =>
  obtain ⟨hfits, hph1⟩ := Encoder.reserve16_ph hreserve
  have hph : e2.ph = e.wp := (Encoder.copyLoop_ph _ hloop).trans hph1
  have hin := h.lt_of_fits hfits
  exact Encoder.outWord_unstopped (by rw [hph]; omega) _

theorem Encoder.endPlane_unstopped {e : Encoder} (h : e.StreamOk) (table : Vector DacColour 58) :
    Unstopped (e.endPlane table) := by
  rw [Encoder.endPlane]
  split
  case h_2 hemit => exact (Encoder.emit16_unstopped h 0).error hemit
  dsimp only
  split
  · exact unstopped_ok _
  · exact unstopped_ok _

/-- The 200 rows of the descriptor have 4 bytes each, the 800 bytes after the stream (R245). -/
theorem Encoder.rowStep_unstopped {e : Encoder} (h : e.StreamOk)
    (hrow : e.row.toNat < Config.virtualHeight) (sent : Colour) : Unstopped (e.rowStep sent) := by
  have hin : e.wp.toNat + 4 * e.row.toNat + 2 + 1 < Config.fileCap := by
    have hhigh := h.2.2
    have hlimit := h.limit_le
    simp only [Config.descriptorBytes, Config.virtualHeight] at hlimit hrow
    omega
  unfold Encoder.rowStep
  dsimp only
  split
  case h_2 hskip =>
    have hin' : e.wp.toNat + 4 * e.row.toNat + 1 < Config.fileCap := by omega
    exact (Encoder.outWord_unstopped hin' _).error hskip
  split
  case h_2 hhide => exact (Encoder.outWord_unstopped hin _).error hhide
  exact unstopped_ok _

theorem Encoder.step_unstopped {e : Encoder} (h : e.StreamOk) (par : Config.Params) :
    Unstopped (e.step par) := by
  unfold Encoder.step
  split
  · split
    · split
      · exact Encoder.skipRun_unstopped h _
      · exact Encoder.copyRun_unstopped h _
    · exact Encoder.endPlane_unstopped h _
  · split
    · exact Encoder.rowStep_unstopped h ‹_› _
    · exact unstopped_ok _

/-! ## The statement -/

/-- The bounds of a running decode and of a running encode are all that a next state needs. -/
theorem State.Answers.hasNext {s : State} {o : Host.Outcome State Fault Refusal} (h : s.Answers o)
    (hregion : s.dec.RegionOk) (hwalk : s.enc.WalkOk) : HasNext o := by
  cases h with
  | unchanged | readReg | writeReg | read | write | reset | decFinish => exact ⟨_, rfl⟩
  | command hi => exact exec_host_hasNext hi s
  | reserved e => exact State.hasNext_whenIdle ⟨_, rfl⟩
  | stream hbusy hfetch hi =>
    have hcap := hregion.csend_le hbusy
    exact exec_stream_hasNext hi ((Decoder.fetchWord_csend hfetch).symm ▸ hcap)
  | noWord hbusy hfetch =>
    have hword := Decoder.fetchWord_unstopped (hregion.csend_le hbusy)
    exact State.hasNext_afterDec (hword.error hfetch)
  | encode hbusy =>
    have hstream := (hwalk.parts hbusy).1.stream
    exact State.hasNext_afterEnc (Encoder.step_unstopped hstream s.par)

/-- Settles O58: the invariant bounds the region of a decode and the stream of an encode, so every address
lies inside its space. -/
theorem invariantStatesNeverStop : Obligations.InvariantStatesNeverStop := by
  intro s hs
  obtain ⟨turns, hanswer⟩ := step_answers s
  exact hanswer.hasNext hs.region hs.walk

end Sys2Proof.Machine
end

section
/-! PROOF. Decoder and encoder are inverse to each other between the well-formed instructions and the command
words of the stream and the listed codes of a `CMD` register (30_encoding.md R104 to R106, R112), and a stream
command with its payload parses back from its bytes (R107, R108, R115). -/

namespace Sys2Proof.Machine

/-! ## A word, its bytes and its fields -/

theorem wordOfBytes_extract (w : Word16) : wordOfBytes (w.extractLsb' 0 8) (w.extractLsb' 8 8) = w :=
  BitVec.extractLsb'_append_extractLsb' (w := 8) (len := 8)

theorem bytesOfWord_wordOfBytes (b0 b1 : Byte) : bytesOfWord (wordOfBytes b0 b1) = [b0, b1] := by
  rw [bytesOfWord, wordOfBytes, BitVec.extractLsb'_append_eq_right, BitVec.extractLsb'_append_eq_left]

theorem toNat_wordOfBytes (b0 b1 : Byte) : (wordOfBytes b0 b1).toNat = b0.toNat + 256 * b1.toNat := by
  rw [wordOfBytes, BitVec.toNat_append, ← Nat.shiftLeft_add_eq_or_of_lt b0.isLt, Nat.shiftLeft_eq]
  omega

@[simp] theorem wordTag_commandWord (tag : BitVec 2) (count : BitVec 14) :
    wordTag (commandWord tag count) = tag :=
  BitVec.extractLsb'_append_eq_left

@[simp] theorem wordCount_commandWord (tag : BitVec 2) (count : BitVec 14) :
    wordCount (commandWord tag count) = count :=
  BitVec.extractLsb'_append_eq_right

theorem commandWord_fields (w : Word16) : commandWord (wordTag w) (wordCount w) = w :=
  BitVec.extractLsb'_append_extractLsb' (w := 2) (len := 14)

theorem toNat_wordTag (w : Word16) : (wordTag w).toNat = w.toNat / 16384 := by
  have hw := w.isLt
  rw [wordTag, BitVec.extractLsb'_toNat, Nat.shiftRight_eq_div_pow]
  omega

theorem toNat_wordCount (w : Word16) : (wordCount w).toNat = w.toNat % 16384 :=
  BitVec.extractLsb'_toNat 0 14 w

/-! ## Command words of the stream -/

@[simp] theorem decode_bytesOfWord (w : Word16) (rest : List Byte) :
    decode .stream (bytesOfWord w ++ rest) = .ok (decodeWord w, rest) :=
  congrArg (fun w => Except.ok (decodeWord w, rest)) (wordOfBytes_extract w)

theorem decodeWord_eop {w : Word16} (h : (wordTag w).toNat = 0) :
    decodeWord w = .eop (wordCount w).toNat := by
  simp only [decodeWord, h]

theorem decodeWord_skip {w : Word16} (h : (wordTag w).toNat = 1) :
    decodeWord w = .skip (wordCount w).toNat := by
  simp only [decodeWord, h]

theorem decodeWord_repeatRun {w : Word16} (h : (wordTag w).toNat = 2) :
    decodeWord w = .repeatRun (wordCount w).toNat := by
  simp only [decodeWord, h]

theorem decodeWord_copyRun {w : Word16} (h : (wordTag w).toNat = 3) :
    decodeWord w = .copyRun (wordCount w).toNat := by
  simp only [decodeWord, h]

/-- A count that fits its 14 bits is read back from its field, and the word's tag selects the command
(30_encoding.md R104). -/
theorem decode_encodeStream {tag : BitVec 2} {command : Nat → Instr} {n : Nat}
    (hselect : ∀ {w : Word16}, (wordTag w).toNat = tag.toNat → decodeWord w = command (wordCount w).toNat)
    (hfits : decide (n ≤ Config.countMax) = true) (rest : List Byte) :
    decode .stream ((encodeStream tag n).2 ++ rest) = .ok (command n, rest) := by
  have hcount : (BitVec.ofNat 14 n).toNat = n :=
    Nat.mod_eq_of_lt (Nat.lt_succ_of_le (of_decide_eq_true hfits))
  rw [encodeStream, decode_bytesOfWord, hselect (congrArg _ (wordTag_commandWord ..)),
    wordCount_commandWord, hcount]

/-- A word's own tag and count encode to its bytes. -/
theorem encodeStream_fields {w : Word16} {tag : BitVec 2} (h : (wordTag w).toNat = tag.toNat) :
    encodeStream tag (wordCount w).toNat = (.stream, bytesOfWord w) := by
  rw [encodeStream, BitVec.ofNat_toNat, BitVec.setWidth_eq, ← BitVec.eq_of_toNat_eq h, commandWord_fields]

theorem encode_decodeWord (w : Word16) : encode (decodeWord w) = (.stream, bytesOfWord w) := by
  have htag : (wordTag w).toNat = 0 ∨ (wordTag w).toNat = 1 ∨ (wordTag w).toNat = 2 ∨
      (wordTag w).toNat = 3 := by
    have := (wordTag w).isLt
    omega
  obtain h | h | h | h := htag
  · rw [decodeWord_eop h]
    exact encodeStream_fields h
  · rw [decodeWord_skip h]
    exact encodeStream_fields h
  · rw [decodeWord_repeatRun h]
    exact encodeStream_fields h
  · rw [decodeWord_copyRun h]
    exact encodeStream_fields h

/-! ## Codes of a `CMD` register -/

theorem wellFormed_of_onStream_false {i : Instr} (h : onStream i = false) : i.wellFormed = true := by
  cases i with
  | eop | skip | repeatRun | copyRun => cases h
  | _ => rfl

theorem encode_of_decodeCode {e : Engine} {c : Byte} {i : Instr} (h : decodeCode e c = .ok i) :
    encode i = (.cmd e, [c]) := by
  have hcode : BitVec.ofNat 8 c.toNat = c := by simp
  unfold decodeCode at h
  generalize c.toNat = n at h hcode
  subst hcode
  split at h
  case h_2 => cases e <;> cases h <;> rfl
  all_goals cases h
  all_goals rfl

/-! ## The statements -/

/-- Settles O1: a stream command's word has its tag and its count, and each host command has its own code. -/
theorem decodeOfEncode : Obligations.DecodeOfEncode := by
  intro i rest hwf
  cases i with
  | eop => exact decode_encodeStream decodeWord_eop hwf rest
  | skip => exact decode_encodeStream decodeWord_skip hwf rest
  | repeatRun => exact decode_encodeStream decodeWord_repeatRun hwf rest
  | copyRun => exact decode_encodeStream decodeWord_copyRun hwf rest
  | _ => rfl

/-- Settles O2: a command word is its two fields, and a code that decodes is the one of its command. -/
theorem encodeOfDecode : Obligations.EncodeOfDecode := by
  intro src bytes rest i h
  unfold decode at h
  split at h
  case h_1 b0 b1 rest' =>
    cases h
    rw [encode_decodeWord, bytesOfWord_wordOfBytes]
    exact ⟨wellFormed_decodeWord _, rfl, rfl⟩
  case h_3 e c rest' =>
    split at h
    case h_2 => cases h
    case h_1 hcode =>
      cases h
      rw [encode_of_decodeCode hcode]
      exact ⟨wellFormed_of_onStream_false (onStream_of_decodeCode hcode).1, rfl, rfl⟩
  all_goals cases h

/-- Settles O3: the tag is the top two bits of the second byte. -/
theorem wordFieldsSelectCommand : Obligations.WordFieldsSelectCommand := by
  intro b0 b1 rest
  have htag : (wordTag (wordOfBytes b0 b1)).toNat = b1.toNat / 64 := by
    rw [toNat_wordTag, toNat_wordOfBytes]
    omega
  refine ⟨decodeWord (wordOfBytes b0 b1), rfl, ?_⟩
  rintro count rfl
  rw [← toNat_wordOfBytes, ← toNat_wordCount, ← htag]
  exact ⟨decodeWord_eop, decodeWord_skip, decodeWord_repeatRun, decodeWord_copyRun⟩

/-- Settles O4 by evaluation: the statement is about fixed words. -/
theorem sampleWordsDecode : Obligations.SampleWordsDecode := by
  unfold Obligations.SampleWordsDecode
  decide

/-- A parse decodes the command word and takes the payload (40_decoder_commands.md R138). -/
theorem TaggedCommand.parse_of_decode {bytes rest : List Byte} {i : Instr}
    (h : decode .stream bytes = .ok (i, rest)) : parse bytes = withPayload i rest := by
  rw [parse, h]

/-- Settles O5: the command word decodes (`decodeOfEncode`), and the count of a COPY is the length of its payload. -/
theorem parseOfCommandBytes : Obligations.ParseOfCommandBytes := by
  intro c rest hwf
  cases c with
  | endOfPlane => exact TaggedCommand.parse_of_decode (decodeOfEncode (.eop 0) rest rfl)
  | skip n => exact TaggedCommand.parse_of_decode (decodeOfEncode (.skip n) rest hwf)
  | repeatIndex n index =>
    exact TaggedCommand.parse_of_decode (decodeOfEncode (.repeatRun n) (index :: rest) hwf)
  | copyIndices n indices =>
    obtain ⟨hcount, hlength⟩ := Bool.and_eq_true_iff.mp hwf
    obtain rfl : indices.length = n := beq_iff_eq.mp hlength
    have hword := decodeOfEncode (.copyRun indices.length) (indices ++ rest) hcount
    rw [TaggedCommand.bytes, List.append_assoc, TaggedCommand.parse_of_decode hword]
    simp [TaggedCommand.withPayload]

end Sys2Proof.Machine
end

section
/-! PROOF. What REPEAT and COPY write (40_decoder_commands.md R133 to R135): both are the writing of a list of
indices from the cursor on, which is described once, as a canvas and a map; a COPY reads its list as it goes. -/

namespace Sys2Proof.Machine

/-! ## The canvas and the map after a list of indices -/

/-- CANVAS after the colours of some indices are written at every fourth position from `pos` on (R135). -/
def paint (sent : Colour) (apal : Vector Colour 256) : List Byte → Nat → PixelSpace → PixelSpace
  | [], _, m => m
  | i :: l, pos, m => paint sent apal l (pos + 4) (Cells.write sent m pos (Table.get apal i))

/-- CIM after some indices are recorded with their colours (42_palette_and_colormap.md R196). -/
def observe (apal : Vector Colour 256) (cim : Vector CimEntry 256) (l : List Byte) : Vector CimEntry 256 :=
  l.foldl (fun m i => Table.set m i { valid := true, colour := Table.get apal i }) cim

theorem read_paint_ne {sent : Colour} {apal : Vector Colour 256} {p : Nat} (l : List Byte) {pos : Nat}
    (m : PixelSpace) (hp : ∀ k < l.length, p ≠ pos + 4 * k) :
    Cells.read sent (paint sent apal l pos m) p = Cells.read sent m p := by
  induction l generalizing pos m with
  | nil => rfl
  | cons i l ih =>
    have hrest : ∀ k < l.length, p ≠ pos + 4 + 4 * k := fun k hk => by
      have := hp (k + 1) (Nat.succ_lt_succ hk)
      omega
    have hfirst : p ≠ pos := hp 0 (Nat.succ_pos _)
    rw [paint, ih _ hrest, Cells.read_write_ne _ _ hfirst]

theorem read_paint {sent : Colour} {apal : Vector Colour 256} (l : List Byte) {pos k : Nat} {m : PixelSpace}
    (hm : Cells.wf sent Config.canvasSize m = true)
    (hin : ∀ k < l.length, pos + 4 * k < Config.canvasSize) (hk : k < l.length) :
    Cells.read sent (paint sent apal l pos m) (pos + 4 * k) = Table.get apal l[k] := by
  induction l generalizing pos k m with
  | nil => cases hk
  | cons i l ih =>
    rw [paint]
    cases k with
    | zero =>
      rw [read_paint_ne l _ fun k _ => by omega, Nat.mul_zero, Nat.add_zero, Cells.read_write_same hm]
      rfl
    | succ k =>
      have hpos : pos < Config.canvasSize := hin 0 (Nat.succ_pos _)
      rw [show pos + 4 * (k + 1) = pos + 4 + 4 * k by omega,
        ih (Cells.wf_write hm hpos _) (fun k hk => ?_) (Nat.lt_of_succ_lt_succ hk)]
      · rfl
      · have := hin (k + 1) (Nat.succ_lt_succ hk)
        omega

theorem get_observe (apal : Vector Colour 256) (cim : Vector CimEntry 256) (l : List Byte) (j : Byte) :
    Table.get (observe apal cim l) j =
      if j ∈ l then { valid := true, colour := Table.get apal j } else Table.get cim j := by
  induction l generalizing cim with
  | nil => rfl
  | cons i l ih =>
    rw [observe, List.foldl_cons, ← observe, ih]
    by_cases hj : j = i
    · subst hj
      simp
    · simp [hj, Table.get_set_ne]

/-! ## The writing of a list of indices -/

/-- The write of one position inside the canvas. -/
theorem Decoder.stamp_inside {d : Decoder} (hcur : d.cur.toNat < Config.canvasSize) (sent : Colour)
    (pc0 : Nat) (i : Byte) :
    d.stamp sent pc0 i = .ok (d.advanced 0 1 d.idx
      (Cells.write sent d.canvas d.cur.toNat (Table.get d.apal i))
      (Table.set d.cim i { valid := true, colour := Table.get d.apal i })) := by
  rcases d.stamp_cases sent pc0 i with ⟨hout, -⟩ | ⟨-, ho⟩
  · omega
  · simpa [Decoder.advanced] using ho

theorem Decoder.stamp_outside {d : Decoder} (hcur : Config.canvasSize ≤ d.cur.toNat) (sent : Colour)
    (pc0 : Nat) (i : Byte) : d.stamp sent pc0 i = .error (.raised .canvasOverrun pc0) := by
  rcases d.stamp_cases sent pc0 i with ⟨-, ho⟩ | ⟨hin, -⟩
  · exact ho
  · omega

/-- Inside the canvas the cursor does not wrap. -/
theorem cur_add_four {cur : BitVec 32} (h : cur.toNat < Config.canvasSize) :
    (cur + 4 * BitVec.ofNat 32 1).toNat = cur.toNat + 4 := by
  simp only [Config.canvasSize] at h
  bv_omega

/-- The writing of a list whose positions all lie inside the canvas. -/
theorem Decoder.stampAll_inside (sent : Colour) (pc0 : Nat) (l : List Byte) {d : Decoder}
    (hin : ∀ k < l.length, d.cur.toNat + 4 * k < Config.canvasSize) :
    Decoder.stampAll sent pc0 l d = .ok (d.advanced 0 l.length d.idx
      (paint sent d.apal l d.cur.toNat d.canvas) (observe d.apal d.cim l)) := by
  induction l generalizing d with
  | nil => exact congrArg Except.ok d.advanced_zero.symm
  | cons i l ih =>
    have hcur : d.cur.toNat < Config.canvasSize := hin 0 (Nat.succ_pos _)
    have hnext := cur_add_four hcur
    rw [Decoder.stampAll, Decoder.stamp_inside hcur]
    dsimp only
    rw [ih, Decoder.advanced_advanced, Nat.add_comm 1]
    · simp only [Decoder.advanced, hnext]
      rfl
    · intro k hk
      have := hin (k + 1) (Nat.succ_lt_succ hk)
      simp only [Decoder.advanced, hnext]
      omega

/-- A position outside the canvas anywhere in the list is a fault: the cursor only rises up to it. -/
theorem Decoder.stampAll_outside (sent : Colour) (pc0 : Nat) (l : List Byte) {d : Decoder} {k : Nat}
    (hk : k < l.length) (hout : Config.canvasSize ≤ d.cur.toNat + 4 * k) :
    Decoder.stampAll sent pc0 l d = .error (.raised .canvasOverrun pc0) := by
  induction l generalizing d k with
  | nil => cases hk
  | cons i l ih =>
    rw [Decoder.stampAll]
    by_cases hcur : d.cur.toNat < Config.canvasSize
    · obtain ⟨k, rfl⟩ : ∃ k', k = k' + 1 := Nat.exists_eq_add_one.2 (by omega)
      rw [Decoder.stamp_inside hcur]
      refine ih (Nat.lt_of_succ_lt_succ hk) ?_
      rw [Decoder.advanced, cur_add_four hcur]
      omega
    · rw [Decoder.stamp_outside (Nat.le_of_not_lt hcur)]

theorem Decoder.repeatLoop_eq_stampAll (sent : Colour) (pc0 : Nat) (i : Byte) (n : Nat) (d : Decoder) :
    Decoder.repeatLoop sent pc0 i n d = Decoder.stampAll sent pc0 (List.replicate n i) d := by
  induction n generalizing d with
  | zero => rfl
  | succ n ih =>
    rw [Decoder.repeatLoop, List.replicate_succ, Decoder.stampAll]
    cases d.stamp sent pc0 i with
    | ok d' => exact ih d'
    | error st => rfl

/-! ## Bytes taken from the stream -/

/-- `d` after `n` payload bytes are taken from the stream, `i` the last of them. -/
def Decoder.took (n : Nat) (i : Byte) (d : Decoder) : Decoder := d.advanced n 0 i d.canvas d.cim

theorem Decoder.took_took (m n : Nat) (i j : Byte) (d : Decoder) :
    (d.took m i).took n j = d.took (m + n) j := Decoder.advanced_advanced ..

/-- The next byte of a region that ends inside DIN. -/
theorem Decoder.readIndex_inside {d : Decoder} (hcap : d.csend.toNat ≤ Config.fileCap)
    (hsp : d.sp.toNat < d.csend.toNat) (pc0 : Nat) :
    d.readIndex pc0 = .ok (d.took 1 (memRead8 d.din d.sp.toNat)) := by
  rcases d.readIndex_cases pc0 with ⟨hout, -⟩ | ⟨-, hout, -⟩ | ⟨-, -, ho⟩
  · omega
  · omega
  · simpa [Decoder.took, Decoder.advanced] using ho

theorem Decoder.readIndex_past {d : Decoder} (hsp : d.csend.toNat ≤ d.sp.toNat) (pc0 : Nat) :
    d.readIndex pc0 = .error (.raised .streamUnderrun pc0) :=
  if_pos (Nat.lt_succ_of_le hsp)

/-- What is written does not depend on the bytes taken. -/
theorem Decoder.stamp_took (sent : Colour) (pc0 : Nat) (j : Byte) (n : Nat) (i : Byte) (d : Decoder) :
    (d.took n i).stamp sent pc0 j = Decoder.took n i <$> d.stamp sent pc0 j := by
  have hcur : (d.took n i).cur = d.cur := by simp [Decoder.took, Decoder.advanced]
  by_cases hin : d.cur.toNat < Config.canvasSize
  · rw [Decoder.stamp_inside hin, Decoder.stamp_inside (hcur ▸ hin), hcur]
    simp [Decoder.took, Decoder.advanced]
  · have hout := Nat.le_of_not_lt hin
    rw [Decoder.stamp_outside hout, Decoder.stamp_outside (hcur ▸ hout)]
    rfl

theorem Decoder.stampAll_took (sent : Colour) (pc0 : Nat) (n : Nat) (i : Byte) (l : List Byte)
    (d : Decoder) :
    Decoder.stampAll sent pc0 l (d.took n i) = Decoder.took n i <$> Decoder.stampAll sent pc0 l d := by
  induction l generalizing d with
  | nil => rfl
  | cons j l ih =>
    rw [Decoder.stampAll, Decoder.stampAll, Decoder.stamp_took]
    cases d.stamp sent pc0 j with
    | ok d' => exact ih d'
    | error st => rfl

theorem Decoder.dinBytes_succ (d : Decoder) (a n : Nat) :
    d.dinBytes a (n + 1) = memRead8 d.din a :: d.dinBytes (a + 1) n := by
  simp [Decoder.dinBytes, List.range_succ_eq_map, Nat.add_comm, Nat.add_left_comm]

@[simp] theorem Decoder.length_dinBytes (d : Decoder) (a n : Nat) : (d.dinBytes a n).length = n := by
  simp [Decoder.dinBytes]

theorem Decoder.take_dinBytes (d : Decoder) (a : Nat) {k n : Nat} (h : k ≤ n) :
    (d.dinBytes a n).take k = d.dinBytes a k := by
  simp [Decoder.dinBytes, ← List.map_take, List.take_range, h]

/-- A COPY goes on after its first `m` elements as a COPY of the rest. -/
theorem Decoder.copyLoop_add (sent : Colour) (pc0 m n : Nat) (d : Decoder) :
    Decoder.copyLoop sent pc0 (m + n) d =
      Decoder.copyLoop sent pc0 m d >>= Decoder.copyLoop sent pc0 n := by
  induction m generalizing d with
  | zero => rw [Nat.zero_add]; rfl
  | succ m ih =>
    rw [Nat.add_right_comm, Decoder.copyLoop, Decoder.copyLoop]
    cases d.readIndex pc0 with
    | error st => rfl
    | ok d1 =>
      cases hs : d1.stamp sent pc0 d1.idx with
      | error st => simp only [hs]; rfl
      | ok d2 => simp only [hs, ih]

/-- The first element of a COPY whose byte lies in the region. -/
theorem Decoder.copyLoop_succ (sent : Colour) (pc0 n : Nat) {d : Decoder}
    (hcap : d.csend.toNat ≤ Config.fileCap) (hsp : d.sp.toNat < d.csend.toNat) {b : Byte}
    (hb : b = memRead8 d.din d.sp.toNat) :
    Decoder.copyLoop sent pc0 (n + 1) d =
      d.stamp sent pc0 b >>= fun d' => Decoder.copyLoop sent pc0 n (d'.took 1 b) := by
  have hidx : (d.took 1 b).idx = b := rfl
  rw [Decoder.copyLoop, Decoder.readIndex_inside hcap hsp, ← hb]
  simp only [hidx, Decoder.stamp_took]
  cases d.stamp sent pc0 b <;> rfl

/-- A COPY whose payload lies in the region reads a list of indices and writes it (R134, R138). -/
theorem Decoder.copyLoop_eq_stampAll (sent : Colour) (pc0 n : Nat) {d : Decoder}
    (hcap : d.csend.toNat ≤ Config.fileCap) (hroom : d.sp.toNat + n ≤ d.csend.toNat) :
    Decoder.copyLoop sent pc0 n d =
      Decoder.took n ((d.dinBytes d.sp.toNat n).getLast?.getD d.idx) <$>
        Decoder.stampAll sent pc0 (d.dinBytes d.sp.toNat n) d := by
  induction n generalizing d with
  | zero => exact congrArg Except.ok d.advanced_zero.symm
  | succ n ih =>
    rw [Decoder.copyLoop_succ sent pc0 n hcap (by omega) rfl, Decoder.dinBytes_succ, Decoder.stampAll]
    generalize memRead8 d.din d.sp.toNat = b
    cases hs : d.stamp sent pc0 b with
    | error st => rfl
    | ok d1 =>
      obtain ⟨canvas, cim, rfl⟩ := Decoder.stamp_ok hs
      generalize hd1 : d.advanced 0 1 d.idx canvas cim = d1
      have hsp : (d1.took 1 b).sp.toNat = d.sp.toNat + 1 := by
        rw [← hd1, Decoder.took, Decoder.advanced_advanced, Decoder.advanced_sp_toNat (by omega)]
      have hcsend : (d1.took 1 b).csend = d.csend := by rw [← hd1]; rfl
      have hbytes : (d1.took 1 b).dinBytes = d.dinBytes := by rw [← hd1]; rfl
      have hrest := ih (d := d1.took 1 b) (hcsend ▸ hcap) (by rw [hsp, hcsend]; omega)
      rw [hsp, hbytes, Decoder.stampAll_took, Functor.map_map] at hrest
      simp only [Decoder.took_took] at hrest
      rw [List.getLast?_cons, Option.getD_some, Nat.add_comm n]
      exact hrest

end Sys2Proof.Machine
end

section
/-! PROOF. The stream commands as meanings of instructions (40_decoder_commands.md R131 to R134): their effect
and frame, their faults in order (60_exceptions.md R266, R267, R274), and that a command parsed whole and then
applied has the same effect (R138). -/

namespace Sys2Proof.Machine

/-! ## A REPEAT and a COPY in the state after the fetch -/

/-- A REPEAT whose index byte lies in the region writes a list of that index. -/
theorem exec_repeatRun_inside {s : State} (hcap : s.dec.csend.toNat ≤ Config.fileCap)
    (hsp : s.dec.sp.toNat < s.dec.csend.toNat) (n : Nat) {i : Byte}
    (hi : i = memRead8 s.dec.din s.dec.sp.toNat) :
    exec (.repeatRun n) s = s.afterDec (Decoder.took 1 i <$>
      Decoder.stampAll s.par.sentinel s.dec.pc0 (List.replicate n i) s.dec) := by
  have hidx : (s.dec.took 1 i).idx = i := rfl
  rw [exec, execRepeat, Decoder.readIndex_inside hcap hsp, ← hi]
  simp only [hidx, Decoder.repeatLoop_eq_stampAll, Decoder.stampAll_took]

/-- A COPY whose payload lies in the region writes the list of its payload bytes. -/
theorem exec_copyRun_inside {s : State} {n : Nat} (hcap : s.dec.csend.toNat ≤ Config.fileCap)
    (hroom : s.dec.sp.toNat + n ≤ s.dec.csend.toNat) :
    exec (.copyRun n) s = s.afterDec
      (Decoder.took n ((s.dec.dinBytes s.dec.sp.toNat n).getLast?.getD s.dec.idx) <$>
        Decoder.stampAll s.par.sentinel s.dec.pc0 (s.dec.dinBytes s.dec.sp.toNat n) s.dec) :=
  congrArg s.afterDec (Decoder.copyLoop_eq_stampAll _ _ n hcap hroom)

/-- `d` after `k` payload bytes are taken, `i` the last of them, and the indices `l` written from the cursor
on (R133 to R135). -/
def Decoder.wrote (d : Decoder) (sent : Colour) (k : Nat) (i : Byte) (l : List Byte) : Decoder :=
  d.advanced k l.length i (paint sent d.apal l d.cur.toNat d.canvas) (observe d.apal d.cim l)

theorem Decoder.took_stampAll_inside (sent : Colour) (pc0 k : Nat) (i : Byte) (l : List Byte) {d : Decoder}
    (hin : ∀ j < l.length, d.cur.toNat + 4 * j < Config.canvasSize) :
    Decoder.took k i <$> Decoder.stampAll sent pc0 l d = .ok (d.wrote sent k i l) := by
  rw [Decoder.stampAll_inside sent pc0 l hin]
  exact congrArg Except.ok ((Decoder.advanced_advanced ..).trans (by rw [Nat.zero_add]; rfl))

/-- The cursor after positions that all lie inside the canvas, the last of them included. -/
theorem Decoder.wrote_cur_toNat {d : Decoder} {l : List Byte} (hlength : l.length ≤ Config.countMax)
    (hin : ∀ j < l.length, d.cur.toNat + 4 * j < Config.canvasSize) (sent : Colour) (k : Nat) (i : Byte) :
    (d.wrote sent k i l).cur.toNat = d.cur.toNat + 4 * l.length := by
  change (d.cur + 4 * BitVec.ofNat 32 l.length).toNat = _
  cases hl : l.length with
  | zero => simp
  | succ n =>
    have hlast := hin n (by omega)
    simp only [Config.canvasSize, Config.countMax, hl] at hlast hlength
    bv_omega

theorem Decoder.get_wrote_cim (d : Decoder) (sent : Colour) (k : Nat) (i : Byte) (l : List Byte) (j : Byte) :
    Table.get (d.wrote sent k i l).cim j =
      if j ∈ l then { valid := true, colour := Table.get d.apal j } else Table.get d.cim j :=
  get_observe d.apal d.cim l j

/-- Settles O11: a REPEAT is the writing of a list of one index. -/
theorem repeatWritesOneIndex : Obligations.RepeatWritesOneIndex := by
  intro s count i c hwf hcount hsp hcap hin hi hc
  obtain ⟨⟨-, -, hcanvas⟩, -⟩ := State.memoryOk_iff.2 hwf
  have hlength : (List.replicate count i).length = count := List.length_replicate
  have hall : ∀ k < (List.replicate count i).length, s.dec.cur.toNat + 4 * k < Config.canvasSize := by
    rw [hlength]; exact hin
  have hexec := exec_repeatRun_inside hcap hsp count hi
  rw [Decoder.took_stampAll_inside _ _ _ _ _ hall, State.afterDec_ok] at hexec
  refine ⟨_, hexec, rfl, Decoder.advanced_sp_toNat hsp .., ?_, fun k hk => ?_, fun pos hpos => ?_,
    fun hpos => ?_, fun j hj => ?_⟩
  · rw [Decoder.wrote_cur_toNat (hlength.trans_le hcount) hall, hlength]
  · rw [← hlength] at hk
    exact (read_paint _ hcanvas hall hk).trans (by rw [List.getElem_replicate, hc])
  · exact read_paint_ne _ _ (by rwa [hlength])
  · rw [Decoder.get_wrote_cim, if_pos (List.mem_replicate.2 ⟨hpos.ne', rfl⟩), hc]
  · rw [Decoder.get_wrote_cim, if_neg fun hmem => ?_]
    obtain ⟨hne, heq⟩ := List.mem_replicate.1 hmem
    exact hne (hj heq)

/-- Settles O12: a COPY is the writing of the list of its payload bytes. -/
theorem copyWritesEachIndex : Obligations.CopyWritesEachIndex := by
  intro s count i hwf hcount hroom hcap hin hi
  obtain ⟨⟨-, -, hcanvas⟩, -⟩ := State.memoryOk_iff.2 hwf
  have hexec := exec_copyRun_inside hcap hroom
  have hlist : s.dec.dinBytes s.dec.sp.toNat count = (List.range count).map i :=
    List.map_congr_left fun k _ => (hi k).symm
  have hlength : ((List.range count).map i).length = count := by simp
  have hall : ∀ k < ((List.range count).map i).length, s.dec.cur.toNat + 4 * k < Config.canvasSize := by
    rw [hlength]; exact hin
  rw [hlist, Decoder.took_stampAll_inside _ _ _ _ _ hall, State.afterDec_ok] at hexec
  refine ⟨_, hexec, rfl, ?_, Decoder.advanced_sp_toNat hroom .., ?_, fun k hk => ?_, fun pos hpos => ?_,
    fun k hk => ?_, fun j hj => ?_⟩
  · cases count with
    | zero => rfl
    | succ n => simp [Decoder.wrote, Decoder.advanced, List.range_succ]
  · rw [Decoder.wrote_cur_toNat (hlength.trans_le hcount) hall, hlength]
  · rw [← hlength] at hk
    exact (read_paint _ hcanvas hall hk).trans (by simp)
  · exact read_paint_ne _ _ (by rwa [hlength])
  · rw [Decoder.get_wrote_cim, if_pos (List.mem_map_of_mem (List.mem_range.2 hk))]
  · rw [Decoder.get_wrote_cim, if_neg fun hmem => ?_]
    obtain ⟨k, hk, rfl⟩ := List.mem_map.1 hmem
    exact hj k (List.mem_range.1 hk) rfl

/-! ## Faults -/

/-- What a fault of DEC's RUN leaves (60_exceptions.md R270, R272). -/
theorem State.faultedDec_of_raised (s : State) (c : Cause) {epc : Nat} (hepc : epc < 2 ^ 17) :
    s.FaultedDec (s.faultEntry .dec c epc).spoilDec c.code.toNat epc := by
  refine ⟨rfl, rfl, rfl, rfl, ?_, rfl, rfl, rfl, rfl, rfl, rfl, rfl, rfl, rfl, rfl, rfl, rfl, rfl⟩
  exact BitVec.toNat_ofNat .. ▸ Nat.mod_eq_of_lt hepc

theorem Decoder.pc0_lt (d : Decoder) : d.pc0 < 2 ^ 17 := (Nat.sub_le _ _).trans_lt d.sp.isLt

/-- A stream command that raises at its own word leaves the fault's state. -/
theorem State.faultedDec_of_stream {s : State} {r : Except Stop Decoder} {c : Cause}
    (hr : r = .error (.raised c s.dec.pc0)) :
    ∃ t, s.afterDec r = .next t ∧ s.FaultedDec t c.code.toNat s.dec.pc0 :=
  ⟨_, hr ▸ s.afterDec_raised c s.dec.pc0, s.faultedDec_of_raised c s.dec.pc0_lt⟩

/-- Settles O13: a REPEAT reads its index byte before it writes. -/
theorem repeatFaultsInOrder : Obligations.RepeatFaultsInOrder := by
  intro s count _ hcap
  refine ⟨fun hpast => ?_, fun k hk hsp hout => ?_⟩
  · refine State.faultedDec_of_stream (c := .streamUnderrun) ?_
    rw [Decoder.readIndex_past hpast]
  · rw [exec_repeatRun_inside hcap hsp count rfl,
      Decoder.stampAll_outside _ _ _ (List.length_replicate.symm ▸ hk) hout]
    exact State.faultedDec_of_stream (c := .canvasOverrun) rfl

/-- The elements of a COPY that have their byte and their position. -/
theorem Decoder.copyLoop_inside (sent : Colour) (pc0 k : Nat) {d : Decoder}
    (hcap : d.csend.toNat ≤ Config.fileCap)
    (hin : ∀ j < k, d.sp.toNat + j < d.csend.toNat ∧ d.cur.toNat + 4 * j < Config.canvasSize) :
    ∃ d', Decoder.copyLoop sent pc0 k d = .ok d' ∧ d'.csend = d.csend ∧
      d'.sp.toNat = d.sp.toNat + k := by
  cases k with
  | zero => exact ⟨d, rfl, rfl, rfl⟩
  | succ k =>
    have hroom : d.sp.toNat + (k + 1) ≤ d.csend.toNat := (hin k k.lt_succ_self).1
    have hcur : ∀ j < (d.dinBytes d.sp.toNat (k + 1)).length, d.cur.toNat + 4 * j < Config.canvasSize := by
      rw [Decoder.length_dinBytes]; exact fun j hj => (hin j hj).2
    have hcopy := Decoder.copyLoop_eq_stampAll sent pc0 _ hcap hroom
    rw [Decoder.took_stampAll_inside _ _ _ _ _ hcur] at hcopy
    exact ⟨_, hcopy, rfl, Decoder.advanced_sp_toNat hroom ..⟩

/-- Settles O14: the elements before the faulting one go on; that one reads its byte before it writes. -/
theorem copyFaultsElementByElement : Obligations.CopyFaultsElementByElement := by
  intro s count k _ hcap hk hbefore
  obtain ⟨m, rfl⟩ : ∃ m, count = k + (m + 1) := ⟨count - k - 1, by omega⟩
  refine ⟨fun hpast => ?_, fun hsp hout => ?_⟩
  · obtain ⟨d, hd, hcsend, hdsp⟩ := Decoder.copyLoop_inside s.par.sentinel s.dec.pc0 k hcap hbefore
    refine State.faultedDec_of_stream (c := .streamUnderrun) ?_
    rw [Decoder.copyLoop_add, hd]
    change Decoder.copyLoop _ _ (m + 1) d = _
    rw [Decoder.copyLoop, Decoder.readIndex_past (by rw [hcsend, hdsp]; exact hpast)]
  · refine State.faultedDec_of_stream (c := .canvasOverrun) ?_
    rw [Nat.add_comm m, ← Nat.add_assoc, Decoder.copyLoop_add,
      Decoder.copyLoop_eq_stampAll _ _ (k + 1) hcap hsp,
      Decoder.stampAll_outside _ _ _ (k := k) (by simp) hout]
    rfl

/-! ## A command parsed whole -/

theorem TaggedCommand.apply_unstopped (c : TaggedCommand) (sent : Colour) (pc0 : Nat) (d : Decoder) :
    Unstopped (c.apply sent pc0 d) := by
  cases c with
  | endOfPlane | skip n => exact unstopped_ok _
  | repeatIndex n i => exact Decoder.repeatLoop_unstopped sent pc0 i n d
  | copyIndices n l =>
    rw [TaggedCommand.apply]
    induction l generalizing d with
    | nil => exact unstopped_ok d
    | cons i l ih =>
      rw [Decoder.stampAll]
      split
      · exact ih _
      · next hs => exact (d.stamp_unstopped sent pc0 i).error hs

/-- In the state after the fetch: a command whose payload the region holds does what its parse does, and
takes the bytes of the payload besides. -/
theorem exec_eq_apply {s : State} {i : Instr} {c : TaggedCommand} {rest : List Byte} {n : Nat}
    (hcap : s.dec.csend.toNat ≤ Config.fileCap) (hroom : s.dec.sp.toNat + n ≤ s.dec.csend.toNat)
    (hparse : TaggedCommand.withPayload i (s.dec.dinBytes s.dec.sp.toNat n) = some (c, rest)) :
    ∃ k idx, k + rest.length = n ∧
      exec i s = s.afterDec (Decoder.took k idx <$> c.apply s.par.sentinel s.dec.pc0 s.dec) := by
  unfold TaggedCommand.withPayload at hparse
  cases i with
  | eop m =>
    cases hparse
    refine ⟨0, s.dec.endPlane.idx, by simp, ?_⟩
    exact congrArg (fun d => s.afterDec (.ok d)) s.dec.endPlane.advanced_zero.symm
  | skip m =>
    cases hparse
    refine ⟨0, (s.dec.skipPositions m).idx, by simp, ?_⟩
    exact congrArg (fun d => s.afterDec (.ok d)) (s.dec.skipPositions m).advanced_zero.symm
  | repeatRun m =>
    cases n with
    | zero => cases hparse
    | succ n =>
      rw [Decoder.dinBytes_succ] at hparse
      cases hparse
      refine ⟨1, memRead8 s.dec.din s.dec.sp.toNat, by rw [Decoder.length_dinBytes, Nat.add_comm], ?_⟩
      rw [TaggedCommand.apply, Decoder.repeatLoop_eq_stampAll]
      exact exec_repeatRun_inside hcap (by omega) m rfl
  | copyRun m =>
    dsimp only at hparse
    rw [Decoder.length_dinBytes] at hparse
    split at hparse
    case isFalse => cases hparse
    next hm =>
    cases hparse
    rw [Decoder.take_dinBytes _ _ hm, TaggedCommand.apply]
    exact ⟨m, _, by rw [List.length_drop, Decoder.length_dinBytes]; omega,
      exec_copyRun_inside hcap (by omega)⟩
  | _ => cases hparse

/-- A word that is fetched lies in the region, and only `W`, `SP` and `CNT` change (R130). -/
theorem Decoder.fetchWord_ok {d d' : Decoder} (h : d.fetchWord = .ok d') :
    d.sp.toNat + 2 ≤ d.csend.toNat ∧ d' = { d with
      word := memRead16 d.din d.sp.toNat
      sp := d.sp + 2
      cnt := wordCount (memRead16 d.din d.sp.toNat) } := by
  rcases d.fetchWord_cases with ⟨-, ho⟩ | ⟨-, -, ho⟩ | ⟨hroom, -, ho⟩ <;> rw [ho] at h <;> cases h
  exact ⟨hroom, rfl⟩

/-- A list of indices is written without a byte of the stream. -/
theorem Decoder.stampAll_ok {sent : Colour} {pc0 : Nat} (l : List Byte) {d d' : Decoder}
    (h : Decoder.stampAll sent pc0 l d = .ok d') :
    ∃ canvas cim, d' = d.advanced 0 l.length d.idx canvas cim := by
  induction l generalizing d with
  | nil => cases h; exact ⟨d'.canvas, d'.cim, d'.advanced_zero.symm⟩
  | cons i l ih =>
    rw [Decoder.stampAll] at h
    split at h
    case h_2 => cases h
    next hs =>
    obtain ⟨_, _, rfl⟩ := Decoder.stamp_ok hs
    obtain ⟨canvas, cim, rfl⟩ := ih h
    exact ⟨canvas, cim, by rw [Decoder.advanced_advanced, Nat.add_comm 1]; rfl⟩

/-- The bytes of a parsed command are taken already. -/
theorem TaggedCommand.apply_sp {c : TaggedCommand} {sent : Colour} {pc0 : Nat} {d d' : Decoder}
    (h : c.apply sent pc0 d = .ok d') : d'.sp = d.sp := by
  cases c with
  | endOfPlane | skip n => cases h; rfl
  | repeatIndex n i =>
    obtain ⟨_, _, rfl⟩ := Decoder.repeatLoop_ok n h
    exact BitVec.add_zero _
  | copyIndices n l =>
    obtain ⟨_, _, rfl⟩ := Decoder.stampAll_ok l h
    exact BitVec.add_zero _

/-- Settles O16: the parse decodes the fetched word, and the command does what its parse does. -/
theorem parseThenApplyAgrees : Obligations.ParseThenApplyAgrees := by
  intro s d c rest hcap hfetch hparse
  obtain ⟨hroom, hd⟩ := Decoder.fetchWord_ok hfetch
  obtain ⟨n, hn⟩ : ∃ n, s.dec.csend.toNat = s.dec.sp.toNat + 2 + n := Nat.exists_eq_add_of_le hroom
  have hcsend : d.csend = s.dec.csend := Decoder.fetchWord_csend hfetch
  have hsp : d.sp.toNat = s.dec.sp.toNat + 2 := by
    rw [hd]
    dsimp only
    bv_omega
  have hpc0 : d.pc0 = s.dec.sp.toNat := by rw [Decoder.pc0, hsp, Nat.add_sub_cancel]
  have hpayload : TaggedCommand.withPayload (decodeWord d.word) (d.dinBytes d.sp.toNat n) =
      some (c, rest) := by
    rw [show s.dec.csend.toNat - s.dec.sp.toNat = n + 1 + 1 by omega, Decoder.dinBytes_succ,
      Decoder.dinBytes_succ, TaggedCommand.parse_of_decode rfl] at hparse
    rw [hsp, hd]
    exact hparse
  obtain ⟨k, idx, hlength, hexec⟩ := exec_eq_apply (s := { s with dec := d }) (hcsend ▸ hcap)
    (by rw [hsp, hcsend]; exact hn.ge) hpayload
  dsimp only at hexec
  rw [hpc0] at hexec
  refine ⟨fun d' hd' => ?_, fun cause epc hraised => ?_, c.apply_unstopped _ _ d⟩
  · rw [hd'] at hexec
    refine ⟨_, hexec, rfl, by simp [Decoder.took, Decoder.advanced], rfl, rfl, ?_⟩
    change (d'.sp + BitVec.ofNat 17 k).toNat + rest.length = _
    rw [TaggedCommand.apply_sp hd']
    bv_omega
  · rw [hraised] at hexec
    exact hexec

end Sys2Proof.Machine
end

section
/-! PROOF. EOP and SKIP (40_decoder_commands.md R131, R132), the fetch of a running DEC (R130), and that a
decode ends, because every command takes bytes of the region (R137). -/

namespace Sys2Proof.Machine

/-! ## EOP and SKIP -/

/-- Settles O9: the plane number counts up to 4, where the cursor stays. -/
theorem eopOpensNextPlane : Obligations.EopOpensNextPlane := by
  intro s count hplane
  have hnext : (s.dec.plane + 1).toNat = s.dec.plane.toNat + 1 := plane_succ_toNat hplane
  refine ⟨_, rfl, rfl, hnext, fun hlt => ?_, fun hlast => ?_⟩
  · rw [Decoder.endPlane_cur, if_pos (hnext ▸ hlt), BitVec.toNat_setWidth, hnext]
    omega
  · exact if_neg (hnext ▸ hlast.not_lt)

/-- Settles O10: the cursor does not wrap below its bound. -/
theorem skipMovesCursorOnly : Obligations.SkipMovesCursorOnly := by
  intro s count hcount hcur
  refine ⟨_, rfl, rfl, ?_⟩
  rw [Decoder.skipPositions_cur]
  bv_omega

/-! ## The fetch of a running DEC -/

/-- A move of DEC changes the agenda alone before the fetch (log 3). -/
theorem State.DecMoves.step_eq {s s1 : State} (h : s.DecMoves s1) :
    s1.dec = s.dec ∧ step s = s1.fetchDec.outcome := by
  rw [step_eq_outcome]
  obtain ⟨hagenda, hbusy, rfl⟩ | ⟨rest, hagenda, rfl⟩ | ⟨rest, hagenda, hbusy, rfl⟩ := h
  · simp [State.fetch, hagenda, hbusy]
  · simp [State.fetch, hagenda, State.fetchEngine]
  · simp [State.fetch, hagenda, hbusy, State.fetchEngine]

theorem State.fetchDec_run {s : State} {d : Decoder} (hbusy : s.dec.busy = true)
    (hplane : s.dec.plane.toNat < Config.planes) (hfetch : s.dec.fetchWord = .ok d) :
    s.fetchDec.outcome = exec (decodeWord d.word) { s with dec := d } := by
  simp only [State.fetchDec, hbusy, hplane, hfetch, if_true, Fetched.outcome]

theorem State.fetchDec_noWord {s : State} {st : Stop} (hbusy : s.dec.busy = true)
    (hplane : s.dec.plane.toNat < Config.planes) (hfetch : s.dec.fetchWord = .error st) :
    s.fetchDec.outcome = s.afterDec (.error st) := by
  simp only [State.fetchDec, hbusy, hplane, hfetch, if_true, Fetched.outcome]

theorem State.fetchDec_finish {s : State} (hbusy : s.dec.busy = true)
    (hplane : Config.planes ≤ s.dec.plane.toNat) :
    s.fetchDec.outcome = .next { s with dec := s.dec.finish } := by
  simp only [State.fetchDec, hbusy, hplane.not_gt, if_true, if_false, Fetched.outcome, State.afterDec_ok]

/-- The fetch of a word that lies in a region inside DIN. -/
theorem Decoder.fetchWord_inside {d : Decoder} (hroom : d.sp.toNat + 2 ≤ d.csend.toNat)
    (hcap : d.sp.toNat + 1 < Config.fileCap) :
    d.fetchWord = .ok { d with
      word := memRead16 d.din d.sp.toNat
      sp := d.sp + 2
      cnt := wordCount (memRead16 d.din d.sp.toNat) } := by
  rcases d.fetchWord_cases with ⟨hout, -⟩ | ⟨-, hout, -⟩ | ⟨-, -, ho⟩
  · omega
  · omega
  · exact ho

theorem Decoder.fetchWord_past {d : Decoder} (hpast : d.csend.toNat < d.sp.toNat + 2) :
    d.fetchWord = .error (.raised .streamUnderrun d.sp.toNat) := if_pos hpast

/-- Settles O6: the two bytes at `SP` are the fetched word. -/
theorem stepRunsDecodedCommand : Obligations.StepRunsDecodedCommand := by
  intro s s1 i rest hmoves hbusy hplane hroom hcap hdecode
  have hi : decodeWord (memRead16 s.dec.din s.dec.sp.toNat) = i := (Prod.mk.inj (Except.ok.inj hdecode)).1
  obtain ⟨hdec, hstep⟩ := hmoves.step_eq
  rw [hstep, ← hi, ← hdec]
  rw [← hdec] at hbusy hplane hroom hcap
  exact (State.fetchDec_run hbusy hplane (Decoder.fetchWord_inside hroom hcap) :)

/-- Settles O15: the bound of the region is checked before the word is read. -/
theorem fetchPastRegionUnderruns : Obligations.FetchPastRegionUnderruns := by
  intro s s1 hmoves hbusy hplane hpast
  obtain ⟨hdec, hstep⟩ := hmoves.step_eq
  rw [hstep, ← hdec]
  rw [← hdec] at hbusy hplane hpast
  rw [State.fetchDec_noWord hbusy hplane (Decoder.fetchWord_past hpast)]
  exact ⟨_, s1.afterDec_raised .streamUnderrun _,
    s1.faultedDec_of_raised .streamUnderrun s1.dec.sp.isLt⟩

/-! ## The end of a decode -/

/-- A stream command that leaves DEC running takes bytes of the region or none, and moves nothing else. -/
theorem StreamEffect.rises {i : Instr} {s t : State} (h : StreamEffect i s t) :
    t.agenda = s.agenda ∧ (t.dec.busy = false ∨
      t.dec.csend = s.dec.csend ∧ s.dec.sp.toNat ≤ t.dec.sp.toNat) := by
  cases h with
  | endPlane => exact ⟨rfl, .inr ⟨rfl, le_rfl⟩⟩
  | advanced k n idx canvas cim hroom hn =>
    refine ⟨rfl, .inr ⟨rfl, ?_⟩⟩
    obtain rfl | hroom := hroom
    · exact (BitVec.add_zero s.dec.sp).symm ▸ le_rfl
    · exact (Decoder.advanced_sp_toNat hroom ..).symm ▸ Nat.le_add_right _ k
  | faulted c epc => exact ⟨rfl, .inl rfl⟩

/-- A step of a running DEC ends the decode or takes a command word of the region (R137). -/
theorem fetchDec_progress {s : State} (hregion : s.dec.RegionOk) (hbusy : s.dec.busy = true) :
    ∃ t, s.fetchDec.outcome = .next t ∧ t.agenda = s.agenda ∧ (t.dec.busy = false ∨
      t.dec.csend = s.dec.csend ∧ s.dec.sp.toNat + 2 ≤ t.dec.sp.toNat) := by
  have hcap := hregion.csend_le hbusy
  by_cases hplane : s.dec.plane.toNat < Config.planes
  case neg => exact ⟨_, State.fetchDec_finish hbusy (Nat.le_of_not_lt hplane), rfl, .inl rfl⟩
  by_cases hroom : s.dec.sp.toNat + 2 ≤ s.dec.csend.toNat
  case neg =>
    have hpast := Decoder.fetchWord_past (Nat.lt_of_not_le hroom)
    exact ⟨_, State.fetchDec_noWord hbusy hplane hpast, rfl, .inl rfl⟩
  have hfetch := Decoder.fetchWord_inside hroom (by omega)
  rw [State.fetchDec_run hbusy hplane hfetch]
  obtain ⟨t, ht⟩ := exec_stream_hasNext (onStream_decodeWord _) (s := { s with dec := _ })
    ((Decoder.fetchWord_csend hfetch).symm ▸ hcap)
  obtain ⟨hagenda, hrises⟩ := (exec_stream (onStream_decodeWord _) ht).rises
  refine ⟨t, ht, hagenda, hrises.imp_right fun ⟨hcsend, hsp⟩ => ⟨hcsend, ?_⟩⟩
  have htwo : (s.dec.sp + 2).toNat = s.dec.sp.toNat + 2 := by bv_omega
  exact htwo ▸ hsp

/-- Fewer than `2 n` bytes left in the region: `n` steps end the decode. -/
theorem decode_ends_within (n : Nat) {s : State} (hregion : s.dec.RegionOk) (hcursor : s.dec.CursorOk)
    (hagenda : s.agenda = []) (hbusy : s.dec.busy = true)
    (hleft : s.dec.csend.toNat < s.dec.sp.toNat + 2 * n) :
    ∃ k t, k ≤ n ∧ Sys2Proof.core.run k s = .next t ∧ t.dec.busy = false := by
  induction n generalizing s with
  | zero =>
    obtain ⟨-, -, -, -, hsp, -⟩ := hregion.2 hbusy
    omega
  | succ n ih =>
    obtain ⟨t, hfetch, htagenda, hprogress⟩ := fetchDec_progress hregion hbusy
    have hmoves : s.DecMoves s := .inl ⟨hagenda, hbusy, rfl⟩
    have hstep : step s = .next t := hmoves.step_eq.2.trans hfetch
    have hrun (k : Nat) : Sys2Proof.core.run (k + 1) s = Sys2Proof.core.run k t := by
      have hcore : Sys2Proof.core.step s = .next t := hstep
      simp only [Host.Core.run, hcore]
    cases htbusy : t.dec.busy with
    | false => exact ⟨1, t, by omega, hrun 0, htbusy⟩
    | true =>
      obtain ⟨htregion, htcursor, -⟩ := stepKeepsDecoderBounds s t hregion hcursor hstep
      obtain hidle | ⟨hcsend, hsp⟩ := hprogress
      · simp [hidle] at htbusy
      · obtain ⟨k, u, hk, hu, hidle⟩ := ih htregion htcursor (htagenda.trans hagenda) htbusy
          (by rw [hcsend]; omega)
        exact ⟨k + 1, u, by omega, (hrun k).trans hu, hidle⟩

/-- Settles O59: a region has at most 65535 bytes, and a command at least 2. -/
theorem decodeEnds : Obligations.DecodeEnds := by
  intro s hs hagenda hbusy
  obtain ⟨-, -, -, hlow, -, hcsend, -⟩ := hs.region.2 hbusy
  have hlength : s.dec.csLen.toNat < 65536 := s.dec.csLen.isLt
  obtain ⟨k, t, hk, hrun, hidle⟩ :=
    decode_ends_within 32768 hs.region hs.cursor hagenda hbusy (by omega)
  exact ⟨k, t, by omega, hrun, hidle⟩

end Sys2Proof.Machine
end

section
/-! PROOF. RUN on DEC before its plane loop (41_decoder_sequence.md R151 to R159, 60_exceptions.md R274): one
equation for the whole set-up, by the palette it selects, and from it the faults in their order, the state it
leaves, and that both depend on the inputs alone. -/

namespace Sys2Proof.Machine

/-! ## The set-up by the palette it selects -/

/-- `d` after the start of a RUN and the header step (R151, R152). -/
def Decoder.headed (d : Decoder) : Decoder :=
  { d with
    toEngineRegs := { d.toEngineRegs.startRun with
      hasPal := memRead16 d.din 0
      csLen := memRead16 d.din 2 }
    aw := memRead16 d.din 4
    ah := memRead16 d.din 6 }

/-- The palette that the flag of `d` selects, before the patch, or the failing check (R154, R155). -/
def Decoder.selected (d : Decoder) : Except Stop (Vector Colour 256) :=
  if d.hasPal = 0 then
    if d.palv then .ok d.xpal else .error (.raised .missingPalette 0)
  else if d.inLen.toNat < Config.headerBytes + Config.paletteBytes then
    .error (.raised .streamUnderrun Config.headerBytes)
  else (firstBadDac d.din Config.paletteBytes Config.headerBytes).elim
    (.ok (Table.ofFn (embeddedColour d.din))) fun a => .error (.raised .headerError a)

/-- The same behind the header's own checks (R153). -/
def Decoder.palette (d : Decoder) : Except Stop (Vector Colour 256) :=
  if d.hasPal.toNat > 1 then .error (.raised .headerError 0)
  else if d.aw.toNat > Config.virtualWidth then .error (.raised .headerError 4)
  else if d.ah.toNat > Config.virtualHeight then .error (.raised .headerError 6)
  else d.selected

/-- `d` at the start of its plane loop, its palette being `p` before the patch (R156 to R159). -/
def Decoder.entered (table : Vector DacColour 58) (d : Decoder) (p : Vector Colour 256) : Decoder :=
  { d with
    apal := if d.patchEn then patchPalette table p else p
    csend := BitVec.ofNat 17 (d.csStart + d.csLen.toNat)
    sp := BitVec.ofNat 17 d.csStart
    canvas := []
    cim := clearMap d.cim
    plane := 0
    cur := 0 }

theorem Decoder.selectPalette_eq (d : Decoder) :
    d.selectPalette = d.selected.map fun p => { d with apal := p } := by
  unfold Decoder.selectPalette Decoder.selected
  split
  · split <;> rfl
  unfold Decoder.ingestPalette
  split
  · rfl
  cases firstBadDac d.din Config.paletteBytes Config.headerBytes <;> rfl

/-- The header checks and the selection change the palette alone (R153 to R155). -/
theorem Decoder.checkHeader_bind_selectPalette (d : Decoder) :
    (d.checkHeader >>= Decoder.selectPalette) = d.palette.map fun p => { d with apal := p } := by
  unfold Decoder.checkHeader Decoder.palette
  split
  · rfl
  split
  · rfl
  split
  · rfl
  exact d.selectPalette_eq

theorem Decoder.patchActive_apal (table : Vector DacColour 58) (d : Decoder) (p : Vector Colour 256) :
    ({ d with apal := p } : Decoder).patchActive table =
      { d with apal := if d.patchEn then patchPalette table p else p } := by
  unfold Decoder.patchActive
  dsimp only
  split <;> rfl

/-- The region bound and the opening of the first plane (R157 to R159). -/
theorem Decoder.boundRegion_bind_openPlanes (d : Decoder) :
    (d.boundRegion >>= fun d => .ok d.openPlanes) =
      if d.inLen.toNat < d.csStart + d.csLen.toNat then .error (.raised .streamUnderrun 2)
      else .ok { d with
        csend := BitVec.ofNat 17 (d.csStart + d.csLen.toNat)
        sp := BitVec.ofNat 17 d.csStart
        canvas := []
        cim := clearMap d.cim
        plane := 0
        cur := 0 } := by
  unfold Decoder.boundRegion
  dsimp only
  split <;> rfl

/-- The parts of the set-up, the checks and the palette in one. -/
theorem Decoder.setup_eq_stages (table : Vector DacColour 58) (d : Decoder) :
    d.setup table = ({ d with toEngineRegs := d.toEngineRegs.startRun } : Decoder).readHeader >>= fun d =>
      (d.checkHeader >>= Decoder.selectPalette) >>= fun d =>
        (d.patchActive table).boundRegion >>= fun d => .ok d.openPlanes := by
  simp only [Decoder.setup, bind_assoc]
  rfl

theorem Decoder.setup_of_noHeader {table : Vector DacColour 58} {d : Decoder} (hlen : d.inLen.toNat < 8) :
    d.setup table = .error (.raised .streamUnderrun 0) := by
  have hread : ({ d with toEngineRegs := d.toEngineRegs.startRun } : Decoder).readHeader = _ := if_pos hlen
  rw [Decoder.setup_eq_stages, hread]
  rfl

/-- A file that holds a header: the palette, then the region bound (R153 to R159). -/
theorem Decoder.setup_eq (table : Vector DacColour 58) {d : Decoder} (hlen : 8 ≤ d.inLen.toNat) :
    d.setup table = d.headed.palette >>= fun p =>
      if d.inLen.toNat < d.headed.csStart + d.headed.csLen.toNat then .error (.raised .streamUnderrun 2)
      else .ok (d.headed.entered table p) := by
  have hread : ({ d with toEngineRegs := d.toEngineRegs.startRun } : Decoder).readHeader = .ok d.headed :=
    if_neg (Nat.not_lt.2 hlen)
  rw [Decoder.setup_eq_stages, hread]
  change (d.headed.checkHeader >>= Decoder.selectPalette) >>= _ = _
  rw [Decoder.checkHeader_bind_selectPalette]
  cases d.headed.palette with
  | error st => rfl
  | ok p =>
    change (Decoder.patchActive table { d.headed with apal := p }).boundRegion >>= _ = ite _ _ _
    rw [Decoder.patchActive_apal]
    exact Decoder.boundRegion_bind_openPlanes _

theorem Decoder.setup_of_noPalette {table : Vector DacColour 58} {d : Decoder} {st : Stop}
    (hlen : 8 ≤ d.inLen.toNat) (hpal : d.headed.palette = .error st) : d.setup table = .error st := by
  rw [Decoder.setup_eq table hlen, hpal]
  rfl

theorem Decoder.setup_of_noRoom {table : Vector DacColour 58} {d : Decoder} {p : Vector Colour 256}
    (hlen : 8 ≤ d.inLen.toNat) (hpal : d.headed.palette = .ok p)
    (hshort : d.inLen.toNat < d.headed.csStart + d.headed.csLen.toNat) :
    d.setup table = .error (.raised .streamUnderrun 2) := by
  rw [Decoder.setup_eq table hlen, hpal]
  exact if_pos hshort

theorem Decoder.setup_of_room {table : Vector DacColour 58} {d : Decoder} {p : Vector Colour 256}
    (hlen : 8 ≤ d.inLen.toNat) (hpal : d.headed.palette = .ok p)
    (hroom : d.headed.csStart + d.headed.csLen.toNat ≤ d.inLen.toNat) :
    d.setup table = .ok (d.headed.entered table p) := by
  rw [Decoder.setup_eq table hlen, hpal]
  exact if_neg hroom.not_gt

/-! ## The palette, case by case -/

/-- The first byte above 63 is the first that a search through the palette bytes finds (R155). -/
theorem firstBadDac_eq_find (din : ByteSpace) (n a : Nat) :
    firstBadDac din n a = (List.range' a n).find? fun b => decide (63 < (memRead8 din b).toNat) := by
  induction n generalizing a with
  | zero => rfl
  | succ n ih =>
    rw [firstBadDac, List.range'_succ, List.find?_cons, ih]
    split
    · next hbad => rw [decide_eq_true hbad]
    · next hgood => rw [decide_eq_false hgood]

theorem firstBadDac_eq_none {din : ByteSpace} {n a : Nat}
    (h : ∀ b, a ≤ b → b < a + n → (memRead8 din b).toNat ≤ 63) : firstBadDac din n a = none := by
  rw [firstBadDac_eq_find, List.find?_range'_eq_none]
  simpa using h

theorem firstBadDac_eq_some {din : ByteSpace} {n a b : Nat} (hab : a ≤ b) (hb : b < a + n)
    (hbad : 63 < (memRead8 din b).toNat) (hbefore : ∀ c, a ≤ c → c < b → (memRead8 din c).toNat ≤ 63) :
    firstBadDac din n a = some b := by
  rw [firstBadDac_eq_find, List.find?_range'_eq_some]
  simpa [hbad, hab, hb] using hbefore

theorem firstBadDac_congr {din din' : ByteSpace} {n a : Nat}
    (h : ∀ b, a ≤ b → b < a + n → memRead8 din b = memRead8 din' b) :
    firstBadDac din n a = firstBadDac din' n a := by
  rw [firstBadDac_eq_find, firstBadDac_eq_find]
  refine List.find?_congr fun b hb => ?_
  obtain ⟨hab, hb⟩ := List.mem_range'_1.1 hb
  rw [h b hab hb]

/-- Past the checks of R153 the selection is left. -/
theorem Decoder.palette_eq_selected {d : Decoder} (h : d.HeaderOk) : d.palette = d.selected := by
  obtain ⟨hflag, hwidth, hheight⟩ := h
  exact (if_neg hflag.not_gt).trans ((if_neg hwidth.not_gt).trans (if_neg hheight.not_gt))

theorem Decoder.palette_external {d : Decoder} (hheader : d.HeaderOk) (hflag : d.hasPal = 0) :
    d.palette = if d.palv then .ok d.xpal else .error (.raised .missingPalette 0) :=
  (Decoder.palette_eq_selected hheader).trans (if_pos hflag)

theorem Decoder.palette_short {d : Decoder} (hheader : d.HeaderOk) (hembedded : d.hasPal ≠ 0)
    (hshort : d.inLen.toNat < 776) : d.palette = .error (.raised .streamUnderrun 8) :=
  (Decoder.palette_eq_selected hheader).trans ((if_neg hembedded).trans (if_pos hshort))

theorem Decoder.palette_embedded {d : Decoder} (hheader : d.HeaderOk) (hembedded : d.hasPal ≠ 0)
    (hlen : 776 ≤ d.inLen.toNat) :
    d.palette = (firstBadDac d.din Config.paletteBytes Config.headerBytes).elim
      (.ok (Table.ofFn (embeddedColour d.din))) fun a => .error (.raised .headerError a) :=
  (Decoder.palette_eq_selected hheader).trans ((if_neg hembedded).trans (if_neg hlen.not_gt))

/-- An embedded palette whose bytes are all DAC values is ingested (R155). -/
theorem Decoder.palette_ingested {d : Decoder} (hheader : d.HeaderOk) (hembedded : d.hasPal ≠ 0)
    (hlen : 776 ≤ d.inLen.toNat) (hdac : ∀ a, 8 ≤ a → a < 776 → (memRead8 d.din a).toNat ≤ 63) :
    d.palette = .ok (Table.ofFn (embeddedColour d.din)) := by
  rw [Decoder.palette_embedded hheader hembedded hlen, firstBadDac_eq_none hdac]
  rfl

/-- The first byte of an embedded palette that is no DAC value is reported (R155). -/
theorem Decoder.palette_badDac {d : Decoder} (hheader : d.HeaderOk) (hembedded : d.hasPal ≠ 0)
    (hlen : 776 ≤ d.inLen.toNat) {a : Nat} (hlow : 8 ≤ a) (hhigh : a < 776)
    (hbad : 63 < (memRead8 d.din a).toNat) (hbefore : ∀ b, 8 ≤ b → b < a → (memRead8 d.din b).toNat ≤ 63) :
    d.palette = .error (.raised .headerError a) := by
  have hfirst : firstBadDac d.din Config.paletteBytes Config.headerBytes = some a :=
    firstBadDac_eq_some hlow hhigh hbad hbefore
  rw [Decoder.palette_embedded hheader hembedded hlen, hfirst]
  rfl

/-! ## The state before the plane loop -/

theorem exec_runDec_idle {s : State} (hidle : s.dec.busy = false) :
    exec .runDec s = s.afterDec (s.dec.setup s.par.patchTable) := State.whenIdle_idle (e := .dec) hidle _

/-- RUN on a whole file whose stream starts at `start`: the state before the plane loop. -/
theorem runDec_enters {s : State} {p : Vector Colour 256} {flag : Word16} {start : Nat}
    (hidle : s.dec.busy = false) (hlen : 8 ≤ s.dec.inLen.toNat)
    (hflag : memRead16 s.dec.din 0 = flag) (hpal : s.dec.headed.palette = .ok p)
    (hstart : s.dec.headed.csStart = start)
    (hroom : start + (memRead16 s.dec.din 2).toNat ≤ s.dec.inLen.toNat) :
    ∃ t, exec .runDec s = .next t ∧
      t = { s with dec := { s.dec with
        busy := true, done := false, err := false, cause := 0, epc := 0, hasPal := flag
        csLen := memRead16 s.dec.din 2, aw := memRead16 s.dec.din 4, ah := memRead16 s.dec.din 6
        apal := if s.dec.patchEn then patchPalette s.par.patchTable p else p
        csend := t.dec.csend, sp := BitVec.ofNat 17 start, canvas := t.dec.canvas, cim := t.dec.cim
        plane := 0, cur := 0 } } ∧
      t.dec.csend.toNat = start + (memRead16 s.dec.din 2).toNat ∧
      (∀ pos, Cells.read s.par.sentinel t.dec.canvas pos = s.par.sentinel) ∧
      (∀ i, Table.get t.dec.cim i = { Table.get s.dec.cim i with valid := false }) := by
  subst hflag hstart
  have hend : s.dec.headed.csStart + (memRead16 s.dec.din 2).toNat < 2 ^ 17 :=
    hroom.trans_lt s.dec.inLen.isLt
  rw [exec_runDec_idle hidle, Decoder.setup_of_room hlen hpal hroom]
  exact ⟨_, rfl, rfl, (BitVec.toNat_ofNat ..).trans (Nat.mod_eq_of_lt hend), Cells.read_nil,
    Table.get_clearMap _⟩

/-- Settles O17: no embedded palette, so the external one is selected. -/
theorem runDecWithExternalPalette : Obligations.RunDecWithExternalPalette := by
  intro s hidle hlen hflag hwidth hheight hpalv hroom
  have hflag' : memRead16 s.dec.din 0 = 0 := BitVec.eq_of_toNat_eq hflag
  have hheader : s.dec.headed.HeaderOk := ⟨hflag.trans_le zero_le_one, hwidth, hheight⟩
  have hpal : s.dec.headed.palette = .ok s.dec.xpal :=
    (Decoder.palette_external hheader hflag').trans (if_pos hpalv)
  exact runDec_enters hidle hlen hflag' hpal (if_pos hflag') hroom

/-- A DAC value shifted to full depth is four times that value (42_palette_and_colormap.md R181). -/
theorem fromDac_setWidth (b : Byte) : fromDac (b.setWidth 6) = BitVec.ofNat 8 (4 * b.toNat) := by
  unfold fromDac
  bv_omega

/-- A header whose flag is 1 embeds a palette (R152, R154). -/
theorem Decoder.headed_embeds {d : Decoder} (hflag : (memRead16 d.din 0).toNat = 1) : d.headed.hasPal ≠ 0 :=
  fun h => absurd (hflag.symm.trans (congrArg BitVec.toNat h)) one_ne_zero

/-- Settles O18: the embedded palette is ingested, whatever PALV. -/
theorem runDecWithEmbeddedPalette : Obligations.RunDecWithEmbeddedPalette := by
  intro s hidle hflag hwidth hheight hroom hdac
  have hlen : 776 ≤ s.dec.inLen.toNat := (Nat.le_add_right ..).trans hroom
  have hembedded : s.dec.headed.hasPal ≠ 0 := Decoder.headed_embeds hflag
  have hheader : s.dec.headed.HeaderOk := ⟨hflag.le, hwidth, hheight⟩
  have hpal := Decoder.palette_ingested hheader hembedded hlen hdac
  obtain ⟨t, hrun, hleft⟩ := runDec_enters (flag := 1) hidle (by omega)
    (BitVec.eq_of_toNat_eq hflag) hpal (if_neg hembedded) hroom
  refine ⟨t, _, hrun, fun i => ?_, hleft⟩
  simp only [Table.get_ofFn, embeddedColour, fromDac_setWidth]
  rfl

/-! ## The faults in their order -/

theorem State.faultedDec_of_setup {s t : State} {c : Cause} {epc : Nat} (hidle : s.dec.busy = false)
    (hrun : exec .runDec s = .next t)
    (hsetup : s.dec.setup s.par.patchTable = .error (.raised c epc)) (hepc : epc < 2 ^ 17) :
    s.FaultedDec t c.code.toNat epc := by
  rw [exec_runDec_idle hidle, hsetup] at hrun
  cases hrun
  exact s.faultedDec_of_raised c hepc

theorem State.faultedDec_of_palette {s t : State} {c : Cause} {epc : Nat} (hidle : s.dec.busy = false)
    (hrun : exec .runDec s = .next t) (hlen : 8 ≤ s.dec.inLen.toNat)
    (hpal : s.dec.headed.palette = .error (.raised c epc)) (hepc : epc < 2 ^ 17) :
    s.FaultedDec t c.code.toNat epc :=
  State.faultedDec_of_setup hidle hrun (Decoder.setup_of_noPalette hlen hpal) hepc

/-- A palette is selected, but the region does not end inside the file (R157). -/
theorem State.faultedDec_of_region {s t : State} {p : Vector Colour 256} {start : Nat}
    (hidle : s.dec.busy = false) (hrun : exec .runDec s = .next t) (hlen : 8 ≤ s.dec.inLen.toNat)
    (hpal : s.dec.headed.palette = .ok p) (hstart : s.dec.headed.csStart = start)
    (hshort : s.dec.inLen.toNat < start + (memRead16 s.dec.din 2).toNat) : s.FaultedDec t 6 2 :=
  State.faultedDec_of_setup (c := .streamUnderrun) hidle hrun
    (Decoder.setup_of_noRoom hlen hpal (hstart ▸ hshort)) (by decide)

/-- Settles O19: the header, its bounds, the palette and the region are checked one after the other. -/
theorem runDecChecksInOrder : Obligations.RunDecChecksInOrder := by
  rintro s flag width height len hidle hflagEq rfl rfl rfl
  obtain ⟨t, hrun⟩ := exec_host_hasNext (i := .runDec) rfl s
  refine ⟨t, hrun, fun hshort => ?_, fun hlen => ?_⟩
  · exact State.faultedDec_of_setup hidle hrun (Decoder.setup_of_noHeader hshort) (by decide)
  have hfault {c : Cause} {epc : Nat} := State.faultedDec_of_palette (c := c) (epc := epc) hidle hrun hlen
  have hregion {p : Vector Colour 256} {start : Nat} :=
    State.faultedDec_of_region (p := p) (start := start) hidle hrun hlen
  refine ⟨fun hflag => ?_, fun hflag hwidth => ?_, fun hflag hwidth hheight => ?_,
    fun hwidth hheight => ?_⟩
  · exact hfault (c := .headerError) (if_pos (hflagEq ▸ hflag)) (by decide)
  · exact hfault (c := .headerError)
      ((if_neg (hflagEq ▸ hflag.not_gt)).trans (if_pos hwidth)) (by decide)
  · exact hfault (c := .headerError)
      ((if_neg (hflagEq ▸ hflag.not_gt)).trans ((if_neg hwidth.not_gt).trans (if_pos hheight))) (by decide)
  have hheader (hflag : flag ≤ 1) : s.dec.headed.HeaderOk := ⟨hflagEq ▸ hflag, hwidth, hheight⟩
  have hplain (hflag : flag = 0) : s.dec.headed.hasPal = 0 :=
    BitVec.eq_of_toNat_eq (hflagEq.symm.trans hflag)
  have hembeds (hflag : flag = 1) : s.dec.headed.hasPal ≠ 0 :=
    Decoder.headed_embeds (hflagEq.symm.trans hflag)
  refine ⟨fun hflag hpalv => ?_, fun hflag hpalv hshort => ?_, fun hflag hshort => ?_,
    fun a hflag hlen' hlow hhigh hbad hbefore => ?_, fun hflag hlen' hdac hshort => ?_⟩
  · have hnone := (Decoder.palette_external (hheader (by omega)) (hplain hflag)).trans
      (if_neg (Bool.eq_false_iff.1 hpalv))
    exact hfault hnone (by decide)
  · have hsome := (Decoder.palette_external (hheader (by omega)) (hplain hflag)).trans (if_pos hpalv)
    exact hregion hsome (if_pos (hplain hflag)) hshort
  · exact hfault (Decoder.palette_short (hheader hflag.le) (hembeds hflag) hshort) (by decide)
  · exact hfault (Decoder.palette_badDac (hheader hflag.le) (hembeds hflag) hlen' hlow hhigh hbad hbefore)
      (by omega)
  · exact hregion (Decoder.palette_ingested (hheader hflag.le) (hembeds hflag) hlen' hdac)
      (if_neg (hembeds hflag)) hshort

/-! ## The inputs of the set-up -/

/-- `d` and `d'` hold the same inputs of a decode (41_decoder_sequence.md R150). -/
structure Decoder.SameInputs (d d' : Decoder) : Prop where
  inLen   : d.inLen = d'.inLen
  palv    : d.palv = d'.palv
  patchEn : d.patchEn = d'.patchEn
  xpal    : d.xpal = d'.xpal
  din     : ∀ a < d.inLen.toNat, memRead8 d.din a = memRead8 d'.din a

/-- `d` and `d'` hold the same inputs and the same header. -/
structure Decoder.SameHeader (d d' : Decoder) : Prop extends Decoder.SameInputs d d' where
  hasPal : d.hasPal = d'.hasPal
  csLen  : d.csLen = d'.csLen
  aw     : d.aw = d'.aw
  ah     : d.ah = d'.ah

theorem Decoder.SameInputs.sameHeader {d d' : Decoder} (h : d.SameInputs d') (hlen : 8 ≤ d.inLen.toNat) :
    d.headed.SameHeader d'.headed := by
  have hword (a : Nat) (ha : a + 1 < 8) : memRead16 d.din a = memRead16 d'.din a := by
    rw [memRead16, memRead16, h.din a (by omega), h.din (a + 1) (by omega)]
  exact ⟨⟨h.inLen, h.palv, h.patchEn, h.xpal, h.din⟩, hword 0 (by decide), hword 2 (by decide),
    hword 4 (by decide), hword 6 (by decide)⟩

theorem embeddedColour_congr {din din' : ByteSpace} (h : ∀ a < 776, memRead8 din a = memRead8 din' a) :
    embeddedColour din = embeddedColour din' := by
  funext i
  have hi : Config.headerBytes + 3 * i.toNat + 2 < 776 := by
    have := i.isLt
    simp only [Config.headerBytes]
    omega
  simp only [embeddedColour]
  rw [h _ (by omega), h _ (by omega), h _ hi]

theorem Decoder.SameHeader.selected_eq {d d' : Decoder} (h : d.SameHeader d') :
    d.selected = d'.selected := by
  unfold Decoder.selected
  rw [← h.hasPal, ← h.palv, ← h.xpal, ← h.inLen]
  split
  · rfl
  split
  · rfl
  next hlen =>
  have hbytes (a : Nat) (ha : a < 776) : memRead8 d.din a = memRead8 d'.din a :=
    h.din a (ha.trans_le (Nat.not_lt.1 hlen))
  rw [embeddedColour_congr hbytes, firstBadDac_congr fun b _ hb => hbytes b hb]

theorem Decoder.SameHeader.palette_eq {d d' : Decoder} (h : d.SameHeader d') : d.palette = d'.palette := by
  rw [Decoder.palette, Decoder.palette, h.hasPal, h.aw, h.ah, h.selected_eq]

theorem Decoder.SameHeader.csStart_eq {d d' : Decoder} (h : d.SameHeader d') : d.csStart = d'.csStart := by
  rw [Decoder.csStart, Decoder.csStart, h.hasPal]

/-- The same inputs: the set-up ends early in the same way, or with the same palette. -/
theorem Decoder.SameInputs.setup_alike {d d' : Decoder} (h : d.SameInputs d') (table : Vector DacColour 58) :
    (∃ st, d.setup table = .error st ∧ d'.setup table = .error st) ∨
    (d.headed.SameHeader d'.headed ∧ ∃ p, d.setup table = .ok (d.headed.entered table p) ∧
      d'.setup table = .ok (d'.headed.entered table p)) := by
  by_cases hlen : 8 ≤ d.inLen.toNat
  case neg =>
    have hshort := Nat.not_le.1 hlen
    exact .inl ⟨_, Decoder.setup_of_noHeader hshort, Decoder.setup_of_noHeader (h.inLen ▸ hshort)⟩
  have hheader := h.sameHeader hlen
  rw [Decoder.setup_eq table hlen, Decoder.setup_eq table (h.inLen ▸ hlen), ← hheader.palette_eq,
    ← hheader.csStart_eq, ← hheader.csLen, ← h.inLen]
  cases d.headed.palette with
  | error st => exact .inl ⟨st, rfl, rfl⟩
  | ok p =>
    by_cases hshort : d.inLen.toNat < d.headed.csStart + d.headed.csLen.toNat
    · exact .inl ⟨_, if_pos hshort, if_pos hshort⟩
    · exact .inr ⟨hheader, p, if_neg hshort, if_neg hshort⟩

/-- Settles O20: with the same inputs both set-ups fault alike, or enter with the same header and palette. -/
theorem runDecDependsOnInputsOnly : Obligations.RunDecDependsOnInputsOnly := by
  intro s s' t t' hidle hidle' hpar hinLen hpalv hpatchEn hxpal hdin hrun hrun'
  have hsame : s.dec.SameInputs s'.dec := ⟨hinLen, hpalv, hpatchEn, hxpal, hdin⟩
  rw [exec_runDec_idle hidle] at hrun
  rw [exec_runDec_idle hidle', ← hpar] at hrun'
  obtain ⟨st, hst, hst'⟩ | ⟨hheader, p, hp, hp'⟩ := hsame.setup_alike s.par.patchTable
  · rw [hst] at hrun
    rw [hst'] at hrun'
    cases st with
    | raised c epc =>
      cases hrun
      cases hrun'
      exact ⟨rfl, rfl, rfl, nofun⟩
    | stopped f => cases hrun
  · rw [hp] at hrun
    rw [hp'] at hrun'
    cases hrun
    cases hrun'
    refine ⟨rfl, rfl, rfl, fun _ => ⟨hheader.hasPal, hheader.csLen, hheader.aw, hheader.ah, ?_, rfl, ?_, ?_,
      rfl, rfl, fun i => ?_⟩⟩
    · exact congrArg (fun b : Bool => if b then patchPalette s.par.patchTable p else p) hpatchEn
    · exact congrArg (BitVec.ofNat 17) hheader.csStart_eq
    · simp only [Decoder.entered, hheader.csStart_eq, hheader.csLen]
    · simp [Decoder.entered]

end Sys2Proof.Machine
end

section
/-! PROOF. The finish steps of both engines (41_decoder_sequence.md R160, 43_encoder_runs.md R227, R228), and
the moves of ENC (log 3). -/

namespace Sys2Proof.Machine

/-- A move of ENC changes the agenda alone before its step (log 3). -/
theorem State.EncMoves.step_eq {s s1 : State} (h : s.EncMoves s1) :
    s1.enc = s.enc ∧ step s = s1.fetchEnc.outcome := by
  rw [step_eq_outcome]
  obtain ⟨hagenda, hidle, rfl⟩ | ⟨rest, hagenda, rfl⟩ | ⟨rest, hagenda, hbusy, rfl⟩ := h
  · simp [State.fetch, hagenda, hidle]
  · simp [State.fetch, hagenda, State.fetchEngine]
  · simp [State.fetch, hagenda, State.regs, hbusy, State.fetchEngine]

theorem State.fetchEnc_busy {s : State} (hbusy : s.enc.busy = true) :
    s.fetchEnc.outcome = s.afterEnc (s.enc.step s.par) := by
  simp only [State.fetchEnc, hbusy, if_true, Fetched.outcome]

theorem Encoder.step_finish {e : Encoder} {par : Config.Params} (hplane : Config.planes ≤ e.plane.toNat)
    (hrow : Config.virtualHeight ≤ e.row.toNat) : e.step par = .ok e.finish :=
  (if_neg hplane.not_gt).trans (if_neg hrow.not_gt)

/-- Settles O45: the step of a DEC past its planes, and of an ENC past its planes and rows. -/
theorem finishStepsSetDone : Obligations.FinishStepsSetDone := by
  intro s s1
  refine ⟨fun hmoves hbusy hplane => ?_, fun hmoves hbusy hplane hrow htotal => ?_⟩
  · obtain ⟨hdec, hstep⟩ := hmoves.step_eq
    rw [← hdec] at hbusy hplane
    rw [hstep, State.fetchDec_finish hbusy hplane]
    rfl
  · obtain ⟨henc, hstep⟩ := hmoves.step_eq
    rw [← henc] at hbusy hplane hrow htotal ⊢
    rw [hstep, State.fetchEnc_busy hbusy, Encoder.step_finish hplane hrow]
    exact ⟨_, rfl, rfl, (BitVec.toNat_ofNat ..).trans (Nat.mod_eq_of_lt (htotal.trans_lt (by decide)))⟩

end Sys2Proof.Machine
end

section
/-! PROOF. The map of a running decode is true to its active palette (42_palette_and_colormap.md R196, R201):
the set-up empties the map, a written position records its index with the colour of the active palette, and
everything else leaves both tables alone or the engine idle. -/

namespace Sys2Proof.Machine

/-- Every observed index has the active palette's colour, whether a decode runs or not (R201). -/
def Decoder.MapTrue (d : Decoder) : Prop :=
  ∀ i : Byte, (Table.get d.cim i).valid = true → (Table.get d.cim i).colour = Table.get d.apal i

theorem Decoder.MapTrue.mapOk {d : Decoder} (h : d.MapTrue) : d.MapOk := fun _ => h

theorem Decoder.mapOk_of_idle {d : Decoder} (h : d.busy = false) : d.MapOk :=
  fun hbusy => absurd (h.symm.trans hbusy) Bool.false_ne_true

theorem Decoder.Rests.mapOk {d d' : Decoder} (h : d.Rests d') (hd : d.MapOk) : d'.MapOk := by
  obtain rfl | ⟨hidle, -⟩ := h
  · exact hd
  · exact Decoder.mapOk_of_idle hidle

/-! ## Host commands -/

/-- The set-up of a decode empties the map (41_decoder_sequence.md R158). -/
theorem Decoder.mapTrue_of_setup {table : Vector DacColour 58} {d d' : Decoder}
    (h : d.setup table = .ok d') : d'.MapTrue := by
  unfold Decoder.setup at h
  obtain ⟨d1, -, h⟩ := except_bind_ok h
  obtain ⟨d2, -, h⟩ := except_bind_ok h
  obtain ⟨d3, -, h⟩ := except_bind_ok h
  obtain ⟨d4, -, h⟩ := except_bind_ok h
  cases h
  intro i hvalid
  exact absurd hvalid (by simp [Decoder.openPlanes])

theorem HostEffect.dec_mapOk {s t : State} {e : Engine} (hs : s.dec.MapOk) (h : HostEffect s e t) :
    t.dec.MapOk := by
  cases h with
  | unchanged => exact hs
  | acknowledged hidle =>
    cases e with
    | dec => exact Decoder.mapOk_of_idle hidle
    | enc => exact hs
  | table | tableFaulted =>
    cases e with
    | dec => exact Decoder.mapOk_of_idle rfl
    | enc => exact hs
  | runDec d hidle hd => exact (Decoder.mapTrue_of_setup hd).mapOk
  | runDecFaulted c epc => exact Decoder.mapOk_of_idle rfl
  | runEnc | runEncFaulted => exact hs

/-! ## Stream commands -/

/-- What every position written keeps, the loop of REPEAT keeps (40_decoder_commands.md R133). -/
theorem Decoder.repeatLoop_keeps {P : Decoder → Prop} {sent : Colour} {pc0 : Nat} {i : Byte}
    (hstamp : ∀ d d', P d → d.stamp sent pc0 i = .ok d' → P d') (n : Nat) {d d' : Decoder} (hd : P d)
    (h : Decoder.repeatLoop sent pc0 i n d = .ok d') : P d' := by
  induction n generalizing d with
  | zero => cases h; exact hd
  | succ n ih =>
    rw [Decoder.repeatLoop] at h
    split at h
    case h_2 => cases h
    next d1 hs => exact ih (hstamp d d1 hd hs) h

/-- What every index read and every position written keep, the loop of COPY keeps (R134). -/
theorem Decoder.copyLoop_keeps {P : Decoder → Prop} {sent : Colour} {pc0 : Nat}
    (hread : ∀ d d', P d → d.readIndex pc0 = .ok d' → P d')
    (hstamp : ∀ d d' i, P d → d.stamp sent pc0 i = .ok d' → P d') (n : Nat) {d d' : Decoder} (hd : P d)
    (h : Decoder.copyLoop sent pc0 n d = .ok d') : P d' := by
  induction n generalizing d with
  | zero => cases h; exact hd
  | succ n ih =>
    rw [Decoder.copyLoop] at h
    split at h
    case h_2 => cases h
    next d1 hr =>
    split at h
    case h_2 => cases h
    next d2 hs => exact ih (hstamp d1 d2 d1.idx (hread d d1 hd hr) hs) h

theorem Decoder.MapTrue.fetchWord {d d' : Decoder} (hd : d.MapTrue) (h : d.fetchWord = .ok d') :
    d'.MapTrue := by
  obtain ⟨-, rfl⟩ := Decoder.fetchWord_ok h
  exact hd

theorem Decoder.MapTrue.readIndex {d d' : Decoder} {pc0 : Nat} (hd : d.MapTrue)
    (h : d.readIndex pc0 = .ok d') : d'.MapTrue := by
  obtain ⟨-, i, rfl⟩ := Decoder.readIndex_ok h
  exact hd

/-- A written position records its index with the colour of the active palette (R135, R196). -/
theorem Decoder.MapTrue.stamp {d d' : Decoder} {sent : Colour} {pc0 : Nat} {i : Byte} (hd : d.MapTrue)
    (h : d.stamp sent pc0 i = .ok d') : d'.MapTrue := by
  rcases d.stamp_cases sent pc0 i with ⟨-, ho⟩ | ⟨-, ho⟩ <;> rw [ho] at h <;> cases h
  intro j hvalid
  dsimp only at hvalid ⊢
  by_cases hj : j = i
  · rw [hj, Table.get_set_same]
  · rw [Table.get_set_ne _ _ hj] at hvalid ⊢
    exact hd j hvalid

theorem State.afterDec_mapOk {s t : State} {r : Except Stop Decoder}
    (hr : ∀ d, r = .ok d → d.MapTrue) (h : s.afterDec r = .next t) : t.dec.MapOk := by
  obtain ⟨d, hd, rfl⟩ | ⟨c, epc, -, rfl⟩ := State.afterDec_next h
  · exact (hr d hd).mapOk
  · exact Decoder.mapOk_of_idle rfl

theorem Decoder.MapTrue.execStream {i : Instr} {s t : State} (hs : s.dec.MapTrue) (hi : onStream i = true)
    (h : exec i s = .next t) : t.dec.MapOk := by
  cases i with
  | eop n | skip n => cases h; exact hs.mapOk
  | repeatRun n =>
    refine State.afterDec_mapOk (fun d hd => ?_) h
    split at hd
    case h_2 => cases hd
    next hr => exact Decoder.repeatLoop_keeps (fun _ _ hd => hd.stamp) n (hs.readIndex hr) hd
  | copyRun n =>
    exact State.afterDec_mapOk
      (fun d hd => Decoder.copyLoop_keeps (fun _ _ hd => hd.readIndex) (fun _ _ _ hd => hd.stamp) n hs hd) h
  | _ => cases hi

/-! ## The statement -/

theorem State.Answers.dec_mapOk {s t : State} {o : Host.Outcome State Fault Refusal} (hs : s.dec.MapOk)
    (h : s.Answers o) (ho : o = .next t) : t.dec.MapOk := by
  cases h with
  | unchanged => cases ho; exact hs
  | readReg e n => cases ho; unfold State.hostReadReg; split <;> exact hs
  | read space a => cases ho; rw [State.hostRead_frame]; exact hs
  | writeReg e n v => cases ho; exact (s.hostWriteReg_rests_dec e n v).mapOk hs
  | write space a v => cases ho; exact (s.hostWrite_rests_dec space a v).mapOk hs
  | reset => cases ho; exact Decoder.mapOk_of_idle rfl
  | command hi => exact (exec_host hi ho).dec_mapOk hs
  | reserved e =>
    obtain rfl | ⟨-, hnext⟩ := State.whenIdle_next ho
    · exact hs
    · cases hnext
      cases e with
      | dec => exact Decoder.mapOk_of_idle rfl
      | enc => exact hs
  | @stream i d hbusy hfetch hi =>
    have hmap : s.dec.MapTrue := hs hbusy
    have hfetched : d.MapTrue := hmap.fetchWord hfetch
    exact Decoder.MapTrue.execStream (s := { s with dec := d }) hfetched hi ho
  | noWord hbusy hfetch => exact State.afterDec_mapOk (fun d hd => by cases hd) ho
  | decFinish => cases ho; exact Decoder.mapOk_of_idle rfl
  | encode hbusy =>
    obtain ⟨e, -, rfl⟩ | ⟨c, epc, -, rfl⟩ := State.afterEnc_next ho <;> exact hs

/-- Settles O56: every answer that is a next state keeps the map of a decode true to its palette. -/
theorem stepKeepsMapTrueToPalette : Obligations.StepKeepsMapTrueToPalette := by
  intro s t hs h
  obtain ⟨turns, hanswer⟩ := step_answers s
  exact hanswer.dec_mapOk (s := { s with agenda := turns }) hs h

end Sys2Proof.Machine
end

section
/-! PROOF. The palette commands (42_palette_and_colormap.md R180 to R193): the envelope of a table command said
once, the triplets of a flat file image in AUX, and the patch of a palette entry by entry. -/

namespace Sys2Proof.Machine

/-! ## The envelope of a table command -/

/-- A body that ends, between the start and the end of the envelope (R193). -/
theorem State.tableCommand_afterTable {s : State} {e : Engine} {body : EngineRegs → Except Cause EngineRegs}
    {r : EngineRegs} (hidle : (s.regs e).busy = false)
    (hbody : body (s.regs e).startTable = .ok r.startTable) :
    s.tableCommand e body = .next (s.afterTable e r) := State.tableCommand_ok hidle hbody

/-- A body that faults leaves everything but `STATUS`, `CAUSE` and `EPC` (R193, 60_exceptions.md R272). -/
theorem State.tableCommand_tableFaulted {s : State} {e : Engine}
    {body : EngineRegs → Except Cause EngineRegs} {c : Cause} (hidle : (s.regs e).busy = false)
    (hbody : body (s.regs e).startTable = .error c) :
    s.tableCommand e body = .next (s.tableFaulted e c.code) := by
  rw [State.tableCommand_error hidle hbody, State.tableFault, State.regs_setRegs_same,
    State.setRegs_setRegs]
  rfl

@[simp] theorem State.regs_afterTable (s : State) (e : Engine) (r : EngineRegs) :
    (s.afterTable e r).regs e = { r with busy := false, err := false, cause := 0, epc := 0 } :=
  s.regs_setRegs_same e _

theorem EngineRegs.operand0_eq (r : EngineRegs) : r.operand0 = r.arg0.toNat % 65536 :=
  extract_toNat r.arg0 16

/-! ## The entry of an index -/

theorem execPalGet_inside {s : State} {e : Engine} (hidle : (s.regs e).busy = false)
    (hin : (s.regs e).operand0 ≤ 255) :
    execPalGet e s = .next (s.afterTable e { s.regs e with
      res := (Table.get (s.regs e).xpal (BitVec.ofNat 8 (s.regs e).operand0)).setWidth 32 }) :=
  State.tableCommand_afterTable hidle (if_neg (not_lt.2 hin))

theorem execPalSet_inside {s : State} {e : Engine} (hidle : (s.regs e).busy = false)
    (hin : (s.regs e).operand0 ≤ 255) :
    execPalSet e s = .next (s.afterTable e { s.regs e with
      xpal := Table.set (s.regs e).xpal (BitVec.ofNat 8 (s.regs e).operand0) (s.regs e).operandColour }) :=
  State.tableCommand_afterTable hidle (if_neg (not_lt.2 hin))

theorem execPalGet_outside {s : State} {e : Engine} (hidle : (s.regs e).busy = false)
    (hout : 255 < (s.regs e).operand0) : execPalGet e s = .next (s.tableFaulted e 2) :=
  State.tableCommand_tableFaulted (c := .rangeError) hidle (if_pos hout)

theorem execPalSet_outside {s : State} {e : Engine} (hidle : (s.regs e).busy = false)
    (hout : 255 < (s.regs e).operand0) : execPalSet e s = .next (s.tableFaulted e 2) :=
  State.tableCommand_tableFaulted (c := .rangeError) hidle (if_pos hout)

/-- Settles O23: the index is inside the table, or the check in front of the body fails. -/
theorem palGetAndPalSetByIndex : Obligations.PalGetAndPalSetByIndex := by
  rintro e s r n hidle rfl hn
  rw [← EngineRegs.operand0_eq] at hn
  subst hn
  refine ⟨fun hin => ?_, fun hout => ⟨execPalGet_outside hidle hout, execPalSet_outside hidle hout⟩⟩
  rw [BitVec.ofNat_toNat, ← extract_eq_ofNat]
  exact ⟨execPalGet_inside hidle hin, execPalSet_inside hidle hin⟩

/-! ## The palette of a file image or a list -/

theorem get_flatPalette (aux : ByteSpace) (n : Nat) (i : Byte) :
    Table.get (flatPalette aux n) i =
      if i.toNat < n / 3 then readTriplet aux (3 * i.toNat) else Config.black := Table.get_ofFn _ i

/-- PAL_LOAD_FLAT on whole triplets that fit a palette (R184). -/
theorem execPalLoadFlat_wellFormed {s : State} {e : Engine} (hidle : (s.regs e).busy = false)
    (hwhole : (s.regs e).operand0 % 3 = 0) (hfits : (s.regs e).operand0 ≤ 768) :
    execPalLoadFlat e s = .next (s.afterTable e { s.regs e with
      xpal := flatPalette (s.regs e).aux (s.regs e).operand0, palv := true }) :=
  State.tableCommand_afterTable hidle ((if_neg (not_not_intro hwhole)).trans (if_neg (not_lt.2 hfits)))

theorem execPalLoadFlat_illFormed {s : State} {e : Engine} (hidle : (s.regs e).busy = false)
    (hbad : (s.regs e).operand0 % 3 ≠ 0 ∨ 768 < (s.regs e).operand0) :
    execPalLoadFlat e s = .next (s.tableFaulted e 1) :=
  State.tableCommand_tableFaulted (c := .formatError) hidle ((ite_or ..).symm.trans (if_pos hbad))

theorem execPalLoadList_full {s : State} {e : Engine} (hidle : (s.regs e).busy = false)
    (hcount : (s.regs e).operand0 = 256) :
    execPalLoadList e s = .next (s.afterTable e { s.regs e with
      xpal := Table.ofFn fun i => readTriplet (s.regs e).aux (3 * i.toNat), palv := true }) :=
  State.tableCommand_afterTable hidle (if_neg (not_not_intro hcount))

theorem execPalLoadList_illFormed {s : State} {e : Engine} (hidle : (s.regs e).busy = false)
    (hcount : (s.regs e).operand0 ≠ 256) : execPalLoadList e s = .next (s.tableFaulted e 1) :=
  State.tableCommand_tableFaulted (c := .formatError) hidle (if_pos hcount)

/-- Settles O24: a well-formed size loads its triplets, any other fails a check. -/
theorem paletteLoadsParseTriplets : Obligations.PaletteLoadsParseTriplets := by
  rintro e s r n hidle rfl hn
  rw [← EngineRegs.operand0_eq] at hn
  subst hn
  refine ⟨fun hwhole hfits => ⟨_, execPalLoadFlat_wellFormed hidle hwhole hfits, fun i => ?_⟩,
    execPalLoadFlat_illFormed hidle,
    fun hcount => ⟨_, execPalLoadList_full hidle hcount, Table.get_ofFn _⟩,
    execPalLoadList_illFormed hidle⟩
  rw [get_flatPalette]
  exact ⟨fun hin => if_pos hin, fun hpast => if_neg (not_lt.2 hpast)⟩

/-! ## The bytes of a palette -/

/-- The bytes R, G, B of colour `c` stand at `a` (20_memory.md R78). -/
def TripletAt (m : ByteSpace) (a : Nat) (c : Colour) : Prop :=
  memRead8 m a = red c ∧ memRead8 m (a + 1) = green c ∧ memRead8 m (a + 2) = blue c

theorem TripletAt.readTriplet_eq {m : ByteSpace} {a : Nat} {c : Colour} (h : TripletAt m a c) :
    readTriplet m a = c := by
  obtain ⟨hred, hgreen, hblue⟩ := h
  rw [readTriplet, hred, hgreen, hblue, rgb_channels]

theorem TripletAt.congr {m m' : ByteSpace} {a : Nat} {c : Colour} (h : TripletAt m a c)
    (hsame : ∀ b, a ≤ b → b < a + 3 → memRead8 m' b = memRead8 m b) : TripletAt m' a c := by
  unfold TripletAt
  rwa [hsame a (by omega) (by omega), hsame (a + 1) (by omega) (by omega),
    hsame (a + 2) (by omega) (by omega)]

theorem tripletAt_writeTriplet {size : Nat} {m : ByteSpace} (h : Cells.wf unlistedByte size m = true)
    {a : Nat} (ha : a + 2 < size) (c : Colour) : TripletAt (writeTriplet m a c) a c := by
  have hred := wf_memWrite8 h (show a < size by omega) (red c)
  have hgreen := wf_memWrite8 hred (show a + 1 < size by omega) (green c)
  refine ⟨?_, ?_, memRead8_memWrite8_same hgreen _ _⟩ <;> unfold writeTriplet
  · rw [memRead8_memWrite8_ne _ _ (by omega), memRead8_memWrite8_ne _ _ (by omega),
      memRead8_memWrite8_same h]
  · rw [memRead8_memWrite8_ne _ _ (by omega), memRead8_memWrite8_same hred]

/-- The first `n` triplets of a palette written over AUX: the transfer of R186 on its way. -/
def storeEntries (p : Vector Colour 256) (aux : ByteSpace) (n : Nat) : ByteSpace :=
  (List.range n).foldl (fun m i => writeTriplet m (3 * i) (Table.get p (BitVec.ofNat 8 i))) aux

theorem storeEntries_succ (p : Vector Colour 256) (aux : ByteSpace) (n : Nat) :
    storeEntries p aux (n + 1) =
      writeTriplet (storeEntries p aux n) (3 * n) (Table.get p (BitVec.ofNat 8 n)) := by
  simp [storeEntries, List.range_succ]

theorem memRead8_storeEntries_past (p : Vector Colour 256) (aux : ByteSpace) {n a : Nat} (ha : 3 * n ≤ a) :
    memRead8 (storeEntries p aux n) a = memRead8 aux a := by
  induction n with
  | zero => rfl
  | succ n ih =>
    rw [storeEntries_succ, memRead8_writeTriplet_ne _ _ (.inr (by omega)), ih (by omega)]

/-- The entries written so far stand in AUX, which stays in canonical form. -/
theorem storeEntries_spec (p : Vector Colour 256) {aux : ByteSpace}
    (h : Cells.wf unlistedByte Config.auxCap aux = true) {n : Nat} (hn : n ≤ 256) :
    Cells.wf unlistedByte Config.auxCap (storeEntries p aux n) = true ∧
      ∀ i : Byte, i.toNat < n → TripletAt (storeEntries p aux n) (3 * i.toNat) (Table.get p i) := by
  induction n with
  | zero => exact ⟨h, fun i hi => absurd hi (Nat.not_lt_zero _)⟩
  | succ n ih =>
    obtain ⟨hwf, hbefore⟩ := ih (by omega)
    have hroom : 3 * n + 2 < Config.auxCap := by simp only [Config.auxCap]; omega
    rw [storeEntries_succ]
    refine ⟨wf_writeTriplet hwf hroom _, fun i hi => ?_⟩
    rcases Nat.lt_succ_iff_lt_or_eq.1 hi with hlt | rfl
    · exact (hbefore i hlt).congr fun b _ hb => memRead8_writeTriplet_ne _ _ (.inl (by omega))
    · rw [BitVec.ofNat_toNat, BitVec.setWidth_eq]
      exact tripletAt_writeTriplet hwf hroom _

theorem tripletAt_storePalette (p : Vector Colour 256) {aux : ByteSpace}
    (h : Cells.wf unlistedByte Config.auxCap aux = true) (i : Byte) :
    TripletAt (storePalette p aux) (3 * i.toNat) (Table.get p i) :=
  (storeEntries_spec p h le_rfl).2 i i.isLt

theorem execPalStoreFlat_idle {s : State} {e : Engine} (hidle : (s.regs e).busy = false) :
    execPalStoreFlat e s = .next (s.afterTable e { s.regs e with
      aux := storePalette (s.regs e).xpal (s.regs e).aux }) := by
  refine State.tableCommand_afterTable hidle ?_
  simp only [EngineRegs.startTable]

/-- Settles O25: every entry's triplet stands in AUX, and no byte after the last one is written. -/
theorem palStoreFlatWritesTriplets : Obligations.PalStoreFlatWritesTriplets := by
  rintro e s r hwf hidle rfl
  exact ⟨_, execPalStoreFlat_idle hidle, tripletAt_storePalette _ (Memory.wf_aux hwf e),
    fun a ha => memRead8_storeEntries_past _ _ ha⟩

/-- The 768 bytes of a stored palette parse to that palette (R184, R186). -/
theorem flatPalette_storePalette (p : Vector Colour 256) {aux : ByteSpace}
    (h : Cells.wf unlistedByte Config.auxCap aux = true) : flatPalette (storePalette p aux) 768 = p := by
  refine Table.ext fun i => ?_
  have hin : i.toNat < 768 / 3 := i.isLt
  rw [get_flatPalette, if_pos hin, (tripletAt_storePalette p h i).readTriplet_eq]

/-- Settles O28: the load takes the triplets that the store wrote. -/
theorem paletteStoreThenLoadIsIdentity : Obligations.PaletteStoreThenLoadIsIdentity := by
  intro e s t hwf hidle ht
  cases (execPalStoreFlat_idle hidle).symm.trans ht
  refine ⟨_, execPalLoadFlat_wellFormed ?_ ?_ ?_, ?_⟩
  · simp
  · simp [EngineRegs.operand0_eq]
  · simp [EngineRegs.operand0_eq]
  · simp [EngineRegs.operand0_eq, flatPalette_storePalette _ (Memory.wf_aux hwf e)]

/-! ## The patch -/

theorem get_patchPalette_before (table : Vector DacColour 58) (p : Vector Colour 256) {i : Byte}
    (hi : i.toNat < 198) : Table.get (patchPalette table p) i = Table.get p i := by
  have houtside : ¬(Config.patchFirst ≤ i.toNat ∧ i.toNat < Config.patchFirst + Config.patchCount) :=
    fun h => absurd h.1 (not_le.2 hi)
  rw [patchPalette, Table.get_ofFn, dif_neg houtside]

theorem get_patchPalette_tail (table : Vector DacColour 58) (p : Vector Colour 256) {i : Byte}
    {k : Fin 58} (hi : i.toNat = 198 + k.val) :
    Table.get (patchPalette table p) i =
      if Table.get p i = Config.black then fullDepth table[k] else Table.get p i := by
  have hinside : Config.patchFirst ≤ i.toNat ∧ i.toNat < Config.patchFirst + Config.patchCount := by
    simp only [Config.patchFirst, Config.patchCount]
    omega
  have hk : i.toNat - Config.patchFirst = k.val := by simp only [Config.patchFirst]; omega
  rw [patchPalette, Table.get_ofFn, dif_pos hinside]
  simp only [hk]
  rfl

/-- Every index stands before the tail that the patch covers, or is one of its 58. -/
theorem index_before_or_tail (i : Byte) : i.toNat < 198 ∨ ∃ k : Fin 58, i.toNat = 198 + k.val := by
  by_cases hi : i.toNat < 198
  · exact .inl hi
  · exact .inr ⟨⟨i.toNat - 198, by omega⟩, by dsimp only; omega⟩

theorem fromDac_eq_ofNat (d : BitVec 6) : fromDac d = BitVec.ofNat 8 (4 * d.toNat) := by
  unfold fromDac
  bv_omega

theorem execPalPatch_idle {s : State} {e : Engine} (hidle : (s.regs e).busy = false) :
    execPalPatch e s = .next (s.afterTable e { s.regs e with
      xpal := patchPalette s.par.patchTable (s.regs e).xpal }) :=
  State.tableCommand_afterTable hidle rfl

/-- Settles O26: the patch of XPAL, entry by entry. -/
theorem palPatchReplacesBlackTail : Obligations.PalPatchReplacesBlackTail := by
  rintro e s r hidle rfl
  refine ⟨_, execPalPatch_idle hidle, fun i => ⟨get_patchPalette_before _ _, ?_, ?_⟩⟩
  · intro hcolour
    rcases index_before_or_tail i with hi | ⟨k, hi⟩
    · exact get_patchPalette_before _ _ hi
    · exact (get_patchPalette_tail _ _ hi).trans (if_neg hcolour)
  · intro k hi hblack
    simp only [← fromDac_eq_ofNat]
    exact (get_patchPalette_tail _ _ hi).trans (if_pos hblack)

/-- Settles O29: a patched entry is its constant, black or not, and another patch gives that again. -/
theorem patchIsIdempotent : Obligations.PatchIsIdempotent := by
  intro table p
  refine Table.ext fun i => ?_
  rcases index_before_or_tail i with hi | ⟨k, hi⟩
  · exact get_patchPalette_before _ _ hi
  · rw [get_patchPalette_tail table _ hi, get_patchPalette_tail table p hi]
    by_cases hblack : Table.get p i = Config.black
    · rw [if_pos hblack, ite_self]
    · rw [if_neg hblack, if_neg hblack]

/-! ## The tables emptied, and the DAC conversions -/

theorem execPalClear_idle {s : State} {e : Engine} (hidle : (s.regs e).busy = false) :
    execPalClear e s = .next (s.afterTable e { s.regs e with
      xpal := Table.ofFn fun _ => Config.black, palv := false }) :=
  State.tableCommand_afterTable hidle rfl

theorem execCimClear_idle {s : State} {e : Engine} (hidle : (s.regs e).busy = false) :
    execCimClear e s = .next (s.afterTable e { s.regs e with cim := clearMap (s.regs e).cim }) :=
  State.tableCommand_afterTable hidle rfl

/-- Settles O27: both bodies end with an empty table. -/
theorem clearingCommandsEmptyTables : Obligations.ClearingCommandsEmptyTables := by
  rintro e s r hidle rfl
  exact ⟨⟨_, execPalClear_idle hidle, Table.get_ofFn _⟩,
    ⟨_, execCimClear_idle hidle, Table.get_clearMap _⟩⟩

theorem toDac_fromDac (d : BitVec 6) : toDac (fromDac d) = d := by
  unfold toDac fromDac
  bv_omega

theorem fromDac_toDac (v : Byte) : fromDac (toDac v) = v &&& 0xFC#8 := by
  revert v
  unfold toDac fromDac
  decide

/-- Settles O30: a DAC value keeps its bits, a byte loses its low two. -/
theorem dacConversionLaws : Obligations.DacConversionLaws :=
  ⟨toDac_fromDac, fromDac_toDac, fun d => congrArg fromDac (toDac_fromDac d)⟩

end Sys2Proof.Machine
end

section
/-! PROOF. The colour-index map (42_palette_and_colormap.md R195 to R200): the records of its valid entries in
AUX, the map that a list of records gives, the path from DEC to ENC, and the lookup of a colour. -/

namespace Sys2Proof.Machine

/-! ## The indices in order -/

theorem mem_allIndices (i : Byte) : i ∈ allIndices :=
  List.mem_map.2 ⟨i.toNat, List.mem_range.2 i.isLt, by rw [BitVec.ofNat_toNat, BitVec.setWidth_eq]⟩

/-- The indices below `i`, `i`, and the indices after it. -/
theorem allIndices_eq_append (i : Byte) :
    ∃ after, allIndices = (List.range i.toNat).map (BitVec.ofNat 8) ++ i :: after := by
  obtain ⟨k, hk⟩ : ∃ k, 256 = i.toNat + (k + 1) := ⟨255 - i.toNat, by omega⟩
  refine ⟨((List.range k).map fun j => i.toNat + (j + 1)).map (BitVec.ofNat 8), ?_⟩
  rw [allIndices, hk, List.range_add, List.range_succ_eq_map]
  simp

/-- How many of the listed indices are valid in a map. -/
def countValid (map : Vector CimEntry 256) (l : List Byte) : Nat :=
  l.countP fun i => (Table.get map i).valid

theorem countValid_cons (map : Vector CimEntry 256) (i : Byte) (l : List Byte) :
    countValid map (i :: l) = countValid map l + if (Table.get map i).valid then 1 else 0 :=
  List.countP_cons

theorem countValid_map_range (map : Vector CimEntry 256) (n : Nat) :
    countValid map ((List.range n).map (BitVec.ofNat 8)) = validBelow map n := List.countP_map

theorem countValid_allIndices (map : Vector CimEntry 256) :
    countValid map allIndices = validBelow map 256 := countValid_map_range map 256

theorem validBelow_succ (map : Vector CimEntry 256) (n : Nat) :
    validBelow map (n + 1) =
      validBelow map n + if (Table.get map (BitVec.ofNat 8 n)).valid then 1 else 0 := by
  simp [validBelow, List.range_succ, List.countP_append]

theorem validBelow_le (map : Vector CimEntry 256) (n : Nat) : validBelow map n ≤ n :=
  List.countP_le_length.trans_eq List.length_range

/-- Fewer valid indices stand below a valid index than there are. -/
theorem validBelow_lt {map : Vector CimEntry 256} {i : Byte} (hi : (Table.get map i).valid = true) :
    validBelow map i.toNat < validBelow map 256 := by
  obtain ⟨after, hafter⟩ := allIndices_eq_append i
  have hcount : validBelow map 256 = validBelow map i.toNat + countValid map (i :: after) := by
    rw [← countValid_allIndices, hafter, countValid, List.countP_append]
    exact congrArg (· + _) (countValid_map_range map i.toNat)
  rw [hcount, countValid_cons, if_pos hi]
  omega

/-- Every record number is that of a valid index. -/
theorem exists_valid_of_lt_validBelow {map : Vector CimEntry 256} {n k : Nat} (hn : n ≤ 256)
    (hk : k < validBelow map n) :
    ∃ i : Byte, (Table.get map i).valid = true ∧ validBelow map i.toNat = k := by
  induction n with
  | zero => exact absurd hk (Nat.not_lt_zero k)
  | succ n ih =>
    rw [validBelow_succ] at hk
    by_cases hbelow : k < validBelow map n
    · exact ih (by omega) hbelow
    · split at hk
      · next hvalid =>
        have htoNat : (BitVec.ofNat 8 n).toNat = n := by rw [BitVec.toNat_ofNat]; omega
        exact ⟨BitVec.ofNat 8 n, hvalid, by rw [htoNat]; omega⟩
      · omega

/-! ## The records of a map -/

/-- Record `k` of a side-band map is index `i` with colour `c` (30_encoding.md R114). -/
def RecordAt (m : ByteSpace) (k : Nat) (i : Byte) (c : Colour) : Prop :=
  memRead8 m (4 * k) = i ∧ TripletAt m (4 * k + 1) c

theorem RecordAt.congr {m m' : ByteSpace} {k : Nat} {i : Byte} {c : Colour} (h : RecordAt m k i c)
    (hsame : ∀ a < 4 * (k + 1), memRead8 m' a = memRead8 m a) : RecordAt m' k i c := by
  obtain ⟨hindex, hcolour⟩ := h
  exact ⟨by rw [hsame _ (by omega), hindex], hcolour.congr fun b _ hb => hsame b (by omega)⟩

theorem memRead8_writeRecord_ne (m : ByteSpace) {k a : Nat} (i : Byte) (c : Colour)
    (ha : a < 4 * k ∨ 4 * (k + 1) ≤ a) : memRead8 (writeRecord m k i c) a = memRead8 m a := by
  rw [writeRecord, memRead8_writeTriplet_ne _ _ (by omega), memRead8_memWrite8_ne _ _ (by omega)]

theorem recordAt_writeRecord {m : ByteSpace} (h : Cells.wf unlistedByte Config.auxCap m = true) {k : Nat}
    (hk : k < 256) (i : Byte) (c : Colour) : RecordAt (writeRecord m k i c) k i c := by
  have hroom : 4 * k + 1 + 2 < Config.auxCap := by simp only [Config.auxCap]; omega
  refine ⟨?_, tripletAt_writeTriplet (wf_memWrite8 h (by omega) i) hroom c⟩
  rw [writeRecord, memRead8_writeTriplet_ne _ _ (.inl (by omega)), memRead8_memWrite8_same h]

theorem storeRecords_append (map : Vector CimEntry 256) (l l' : List Byte) (k : Nat) (m : ByteSpace) :
    storeRecords map (l ++ l') k m =
      storeRecords map l' (storeRecords map l k m).1 (storeRecords map l k m).2 := by
  induction l generalizing k m with
  | nil => rfl
  | cons i l ih =>
    rw [List.cons_append, storeRecords, storeRecords]
    split
    · exact ih _ _
    · exact ih _ _

theorem storeRecords_fst (map : Vector CimEntry 256) (l : List Byte) (k : Nat) (m : ByteSpace) :
    (storeRecords map l k m).1 = k + countValid map l := by
  induction l generalizing k m with
  | nil => rfl
  | cons i l ih =>
    rw [storeRecords]
    split
    · next hvalid => rw [ih, countValid_cons, if_pos hvalid]; omega
    · next hvalid => rw [ih, countValid_cons, if_neg hvalid, Nat.add_zero]

/-- Bytes before the first record and after the last one are not written. -/
theorem memRead8_storeRecords_ne (map : Vector CimEntry 256) (l : List Byte) {k a : Nat} (m : ByteSpace)
    (ha : a < 4 * k ∨ 4 * (k + countValid map l) ≤ a) :
    memRead8 (storeRecords map l k m).2 a = memRead8 m a := by
  induction l generalizing k m with
  | nil => rfl
  | cons i l ih =>
    rw [storeRecords]
    split
    · next hvalid =>
      rw [countValid_cons, if_pos hvalid] at ha
      rw [ih _ (by omega), memRead8_writeRecord_ne _ _ _ (by omega)]
    · next hvalid =>
      rw [countValid_cons, if_neg hvalid] at ha
      exact ih m ha

/-- AUX after the records of a map are written (R197). -/
def storedMap (map : Vector CimEntry 256) (aux : ByteSpace) : ByteSpace :=
  (storeRecords map allIndices 0 aux).2

/-- The record of a valid index comes after those of the valid indices below it (R197). -/
theorem recordAt_storedMap (map : Vector CimEntry 256) {aux : ByteSpace}
    (h : Cells.wf unlistedByte Config.auxCap aux = true) {i : Byte}
    (hi : (Table.get map i).valid = true) :
    RecordAt (storedMap map aux) (validBelow map i.toNat) i (Table.get map i).colour := by
  obtain ⟨after, hafter⟩ := allIndices_eq_append i
  have hlength : 0 + ((List.range i.toNat).map (BitVec.ofNat 8)).length ≤ 256 := by simp; omega
  have hwf := wf_storeRecords map _ 0 aux hlength h
  have hk : validBelow map i.toNat < 256 := (validBelow_le map _).trans_lt i.isLt
  rw [storedMap, hafter, storeRecords_append, storeRecords_fst, countValid_map_range, Nat.zero_add,
    storeRecords, if_pos hi]
  exact (recordAt_writeRecord hwf hk i _).congr fun a ha => memRead8_storeRecords_ne _ _ _ (.inl ha)

theorem memRead8_storedMap_past (map : Vector CimEntry 256) (aux : ByteSpace) {a : Nat}
    (ha : 4 * validBelow map 256 ≤ a) : memRead8 (storedMap map aux) a = memRead8 aux a := by
  refine memRead8_storeRecords_ne map allIndices aux (.inr ?_)
  rwa [Nat.zero_add, countValid_allIndices]

theorem execCimStore_idle {s : State} {e : Engine} (hidle : (s.regs e).busy = false) :
    execCimStore e s = .next (s.afterTable e { s.regs e with
      aux := storedMap (s.regs e).cim (s.regs e).aux
      res := BitVec.ofNat 32 (4 * validBelow (s.regs e).cim 256) }) := by
  refine State.tableCommand_afterTable hidle ?_
  simp only [storeRecords_fst, countValid_allIndices, Nat.zero_add, EngineRegs.startTable, storedMap]

/-- Settles O31: the record of each valid index, and the bytes after the records. -/
theorem cimStoreWritesRecords : Obligations.CimStoreWritesRecords := by
  rintro e s r hwf hidle rfl
  refine ⟨_, execCimStore_idle hidle, ?_, fun a ha => memRead8_storedMap_past _ _ ha⟩
  rintro i k hi rfl
  exact recordAt_storedMap _ (Memory.wf_aux hwf e) hi

/-! ## The map of a list of records -/

/-- The map after the first `n` records of AUX are taken (R198). -/
def loadRecords (aux : ByteSpace) (map : Vector CimEntry 256) (n : Nat) : Vector CimEntry 256 :=
  (List.range n).foldl (loadRecord aux) map

theorem loadRecords_succ (aux : ByteSpace) (map : Vector CimEntry 256) (n : Nat) :
    loadRecords aux map (n + 1) = loadRecord aux (loadRecords aux map n) n := by
  simp [loadRecords, List.range_succ]

theorem get_loadRecord_ne {aux : ByteSpace} (map : Vector CimEntry 256) {k : Nat} {i : Byte}
    (h : memRead8 aux (4 * k) ≠ i) : Table.get (loadRecord aux map k) i = Table.get map i :=
  Table.get_set_ne map _ h.symm

theorem get_loadRecords_absent {aux : ByteSpace} (map : Vector CimEntry 256) {n : Nat} {i : Byte}
    (h : ∀ k < n, memRead8 aux (4 * k) ≠ i) : Table.get (loadRecords aux map n) i = Table.get map i := by
  induction n with
  | zero => rfl
  | succ n ih =>
    rw [loadRecords_succ, get_loadRecord_ne _ (h n (Nat.lt_succ_self n)),
      ih fun k hk => h k (Nat.lt_succ_of_lt hk)]

/-- The last record of an index gives its entry. -/
theorem get_loadRecords_last {aux : ByteSpace} (map : Vector CimEntry 256) {n k : Nat} (hk : k < n)
    (hlast : ∀ j < n, k < j → memRead8 aux (4 * j) ≠ memRead8 aux (4 * k)) :
    Table.get (loadRecords aux map n) (memRead8 aux (4 * k)) =
      { valid := true, colour := readTriplet aux (4 * k + 1) } := by
  induction n with
  | zero => exact absurd hk (Nat.not_lt_zero k)
  | succ n ih =>
    rw [loadRecords_succ]
    rcases Nat.lt_succ_iff_lt_or_eq.1 hk with hlt | rfl
    · rw [get_loadRecord_ne _ (hlast n (Nat.lt_succ_self n) hlt),
        ih hlt fun j hj => hlast j (Nat.lt_succ_of_lt hj)]
    · exact Table.get_set_same _ _ _

theorem execCimLoad_wellFormed {s : State} {e : Engine} (hidle : (s.regs e).busy = false)
    (hwhole : (s.regs e).operand0 % 4 = 0) (hfits : (s.regs e).operand0 ≤ 1024) :
    execCimLoad e s = .next (s.afterTable e { s.regs e with
      cim := loadRecords (s.regs e).aux (clearMap (s.regs e).cim) ((s.regs e).operand0 / 4) }) :=
  State.tableCommand_afterTable hidle ((if_neg (not_not_intro hwhole)).trans (if_neg (not_lt.2 hfits)))

theorem execCimLoad_illFormed {s : State} {e : Engine} (hidle : (s.regs e).busy = false)
    (hbad : (s.regs e).operand0 % 4 ≠ 0 ∨ 1024 < (s.regs e).operand0) :
    execCimLoad e s = .next (s.tableFaulted e 1) :=
  State.tableCommand_tableFaulted (c := .formatError) hidle ((ite_or ..).symm.trans (if_pos hbad))

/-- Settles O32: a well-formed size loads its records into an empty map, any other fails a check. -/
theorem cimLoadTakesRecords : Obligations.CimLoadTakesRecords := by
  rintro e s r n hidle rfl hn
  rw [← EngineRegs.operand0_eq] at hn
  subst hn
  refine ⟨fun hwhole hfits => ⟨_, execCimLoad_wellFormed hidle hwhole hfits,
    fun k hk hlast => get_loadRecords_last _ hk hlast, fun i habsent => ?_⟩, execCimLoad_illFormed hidle⟩
  rw [get_loadRecords_absent _ habsent, Table.get_clearMap]

/-! ## The path of a map from DEC to ENC -/

/-- Records that are those of a map, whatever the bytes after them, load into that map (R197, R198). -/
theorem get_loadRecords_of_recordAt {map base : Vector CimEntry 256} {aux : ByteSpace}
    (hrecords : ∀ i : Byte, (Table.get map i).valid = true →
      RecordAt aux (validBelow map i.toNat) i (Table.get map i).colour) (i : Byte) :
    Table.get (loadRecords aux base (validBelow map 256)) i =
      if (Table.get map i).valid then Table.get map i else Table.get base i := by
  have hindex : ∀ k < validBelow map 256, (Table.get map (memRead8 aux (4 * k))).valid = true ∧
      validBelow map (memRead8 aux (4 * k)).toNat = k := fun k hk => by
    obtain ⟨j, hj, rfl⟩ := exists_valid_of_lt_validBelow le_rfl hk
    rw [(hrecords j hj).1]
    exact ⟨hj, rfl⟩
  split
  · next hi =>
    obtain ⟨hi_at, hcolour⟩ := hrecords i hi
    have hlast : ∀ j < validBelow map 256, validBelow map i.toNat < j →
        memRead8 aux (4 * j) ≠ memRead8 aux (4 * validBelow map i.toNat) := fun j hj hlater heq => by
      have := (hindex j hj).2
      rw [heq, hi_at] at this
      omega
    have hentry := get_loadRecords_last base (validBelow_lt hi) hlast
    rw [hi_at, hcolour.readTriplet_eq] at hentry
    rw [hentry, ← hi]
  · next hi =>
    exact get_loadRecords_absent _ fun k hk heq => hi (heq ▸ (hindex k hk).1)

/-- Settles O33: the records that ENC loads are those of DEC's map. -/
theorem mapTravelsFromDecToEnc : Obligations.MapTravelsFromDecToEnc := by
  intro s t u hwf hdec ht henc harg hbytes
  cases (execCimStore_idle (e := .dec) hdec).symm.trans ht
  have hcount : validBelow s.dec.cim 256 ≤ 256 := validBelow_le _ _
  have hres : (BitVec.ofNat 32 (4 * validBelow s.dec.cim 256)).toNat = 4 * validBelow s.dec.cim 256 := by
    rw [BitVec.toNat_ofNat]; omega
  have hoperand : (u.regs .enc).operand0 = 4 * validBelow s.dec.cim 256 := by
    have harg' : (u.regs .enc).arg0.toNat = 4 * validBelow s.dec.cim 256 :=
      (congrArg BitVec.toNat harg).trans hres
    rw [EngineRegs.operand0_eq, harg']
    omega
  have hrecords : ∀ i : Byte, (Table.get s.dec.cim i).valid = true →
      RecordAt u.enc.aux (validBelow s.dec.cim i.toNat) i (Table.get s.dec.cim i).colour := fun i hi =>
    (recordAt_storedMap _ (Memory.wf_aux hwf .dec) hi).congr fun a ha => by
      have hbelow := validBelow_lt hi
      exact hbytes a (lt_of_lt_of_eq (by omega) hres.symm)
  refine ⟨_, execCimLoad_wellFormed (e := .enc) henc (by omega) (by omega), fun i => ?_⟩
  have hentry := get_loadRecords_of_recordAt (base := clearMap u.enc.cim) hrecords i
  rw [show validBelow s.dec.cim 256 = (u.regs .enc).operand0 / 4 by omega] at hentry
  refine ⟨(congrArg CimEntry.valid hentry).trans ?_,
    fun hi => congrArg CimEntry.colour (hentry.trans (if_pos hi))⟩
  cases hi : (Table.get s.dec.cim i).valid <;> simp [hi]

/-! ## The lookup of a colour -/

/-- The search over all indices in order finds the lowest one. -/
theorem find?_allIndices_eq_some_iff {p : Byte → Bool} {i : Byte} :
    allIndices.find? p = some i ↔ p i = true ∧ ∀ j : Byte, j.toNat < i.toNat → ¬p j = true := by
  rw [allIndices, List.find?_map, Option.map_eq_some_iff]
  simp only [List.find?_range_eq_some, List.mem_range, Function.comp_apply, Bool.not_eq_true']
  constructor
  · rintro ⟨n, ⟨hp, hn, hbefore⟩, rfl⟩
    refine ⟨hp, fun j hj => ?_⟩
    rw [BitVec.toNat_ofNat, Nat.mod_eq_of_lt hn] at hj
    simpa using hbefore j.toNat hj
  · rintro ⟨hp, hbefore⟩
    have hi : BitVec.ofNat 8 i.toNat = i := by simp
    refine ⟨i.toNat, ⟨hi.symm ▸ hp, i.isLt, fun n hn => ?_⟩, hi⟩
    have hlt : (BitVec.ofNat 8 n).toNat < i.toNat := (Nat.mod_le n _).trans_lt hn
    simpa using hbefore (BitVec.ofNat 8 n) hlt

theorem find?_allIndices_eq_none_iff {p : Byte → Bool} :
    allIndices.find? p = none ↔ ∀ i : Byte, ¬p i = true :=
  List.find?_eq_none.trans ⟨fun h i => h i (mem_allIndices i), fun h i _ => h i⟩

/-- Settles O34: the lookup searches the indices in ascending order. -/
theorem lookupTakesLowestIndex : Obligations.LookupTakesLowestIndex := by
  intro m c
  rw [lookupColour, ← allIndices, find?_allIndices_eq_none_iff]
  simp only [find?_allIndices_eq_some_iff, Bool.and_eq_true, beq_iff_eq, implies_true, and_self]

end Sys2Proof.Machine
end

section
/-! PROOF. The steps of a running ENC, said once by the part of the sequence they run, what a fault of its RUN
leaves (60_exceptions.md R270, R272), and the start of that RUN (43_encoder_runs.md R211 to R216). -/

namespace Sys2Proof.Machine

/-! ## The moves of ENC -/

theorem State.EncMoves.enc_eq {s s1 : State} (h : s.EncMoves s1) : s1.enc = s.enc := h.step_eq.1

theorem State.EncMoves.par_eq {s s1 : State} (h : s.EncMoves s1) : s1.par = s.par := by
  obtain ⟨-, -, rfl⟩ | ⟨_, -, rfl⟩ | ⟨_, -, -, rfl⟩ := h <;> rfl

/-- A move of a running ENC ends as its part of the sequence ends. -/
theorem State.EncMoves.step_afterEnc {s s1 : State} (h : s.EncMoves s1) (hbusy : s.enc.busy = true) :
    step s = s1.afterEnc (s.enc.step s.par) := by
  obtain ⟨henc, hstep⟩ := h.step_eq
  rw [hstep, State.fetchEnc_busy (henc ▸ hbusy), henc, h.par_eq]

theorem State.EncMoves.step_next {s s1 : State} {e : Encoder} (h : s.EncMoves s1)
    (hbusy : s.enc.busy = true) (he : s.enc.step s.par = .ok e) : step s = .next { s1 with enc := e } := by
  rw [h.step_afterEnc hbusy, he, State.afterEnc_ok]

/-- What a fault of ENC's RUN leaves (60_exceptions.md R270, R272). -/
theorem State.faultedEnc_of_raised (s : State) (c : Cause) {epc : Nat} (hepc : epc < 2 ^ 17) :
    s.FaultedEnc (s.faultEntry .enc c epc).spoilEnc c.code.toNat epc := by
  refine ⟨rfl, rfl, rfl, rfl, ?_, rfl, rfl, rfl, rfl, rfl, rfl, rfl, rfl, rfl, rfl, rfl, rfl, rfl, rfl, rfl,
    rfl⟩
  exact BitVec.toNat_ofNat .. ▸ Nat.mod_eq_of_lt hepc

theorem State.EncMoves.step_faults {s s1 : State} {c : Cause} {epc : Nat} (h : s.EncMoves s1)
    (hbusy : s.enc.busy = true) (hepc : epc < 2 ^ 17) (he : s.enc.step s.par = .error (.raised c epc)) :
    ∃ t, step s = .next t ∧ s1.FaultedEnc t c.code.toNat epc :=
  ⟨_, by rw [h.step_afterEnc hbusy, he, State.afterEnc_raised], s1.faultedEnc_of_raised c hepc⟩

/-! ## The parts of the sequence -/

theorem Encoder.step_skipRun {e : Encoder} {par : Config.Params} (hplane : e.plane.toNat < Config.planes)
    (hpos : e.pos.toNat < Config.canvasSize) (htransparent : e.transparent par.sentinel e.pos.toNat = true) :
    e.step par = e.skipRun par.sentinel := by
  rw [Encoder.step, if_pos hplane, if_pos hpos, if_pos htransparent]

theorem Encoder.step_copyRun {e : Encoder} {par : Config.Params} (hplane : e.plane.toNat < Config.planes)
    (hpos : e.pos.toNat < Config.canvasSize) (hopaque : e.transparent par.sentinel e.pos.toNat = false) :
    e.step par = e.copyRun par.sentinel := by
  rw [Encoder.step, if_pos hplane, if_pos hpos, if_neg (Bool.eq_false_iff.1 hopaque)]

theorem Encoder.step_endPlane {e : Encoder} {par : Config.Params} (hplane : e.plane.toNat < Config.planes)
    (hpos : Config.canvasSize ≤ e.pos.toNat) : e.step par = e.endPlane par.patchTable := by
  rw [Encoder.step, if_pos hplane, if_neg hpos.not_gt]

theorem Encoder.step_rowStep {e : Encoder} {par : Config.Params} (hplane : Config.planes ≤ e.plane.toNat)
    (hrow : e.row.toNat < Config.virtualHeight) : e.step par = e.rowStep par.sentinel := by
  rw [Encoder.step, if_neg hplane.not_gt, if_pos hrow]

/-! ## The start -/

theorem exec_runEnc_idle {s : State} (hidle : s.enc.busy = false) : exec .runEnc s = s.afterEnc s.enc.setup :=
  State.whenIdle_idle (e := .enc) hidle _

theorem Encoder.setup_inside {e : Encoder} (hw : e.gw.toNat ≤ Config.virtualWidth)
    (hh : e.gh.toNat ≤ Config.virtualHeight) :
    e.setup = .ok { e with
      busy := true, done := false, err := false, cause := 0, epc := 0, outLen := 0
      hasPal := if e.palv then 1 else 0
      base := if e.palv then 776 else 8
      wp := if e.palv then 776 else 8
      plane := 0, pos := 0 } := by
  rw [Encoder.setup, if_neg hw.not_gt, if_neg hh.not_gt]
  rfl

theorem Encoder.setup_outside {e : Encoder}
    (h : Config.virtualWidth < e.gw.toNat ∨ Config.virtualHeight < e.gh.toNat) :
    e.setup = .error (.raised .dimensionError 0) := by
  unfold Encoder.setup
  split
  · rfl
  next hw => exact if_pos (h.resolve_left hw)

/-- Settles O35: the check of the dimensions decides between the start of the walk and the fault. -/
theorem runEncBeginsWalk : Obligations.RunEncBeginsWalk := by
  intro s hidle
  rw [exec_runEnc_idle hidle]
  refine ⟨fun hw hh => ?_, fun h => ?_⟩
  · rw [Encoder.setup_inside hw hh, State.afterEnc_ok]
  · rw [Encoder.setup_outside h, State.afterEnc_raised]
    exact ⟨_, rfl, s.faultedEnc_of_raised .dimensionError (by decide)⟩

end Sys2Proof.Machine
end

section
/-! PROOF. The bytes and words of EOUT, and the emits with room in the stream and without (43_encoder_runs.md
R215). -/

namespace Sys2Proof.Machine

/-! ## Bytes and words of EOUT -/

theorem Memory.wf_eout {s : State} (h : Memory.wf s = true) :
    Cells.wf unlistedByte Config.fileCap s.enc.eout = true := by
  obtain ⟨-, heout, -⟩ := State.memoryOk_iff.2 h
  exact heout

theorem toNat_commandWord (tag : BitVec 2) (count : BitVec 14) :
    (commandWord tag count).toNat = 16384 * tag.toNat + count.toNat := by
  rw [commandWord, BitVec.toNat_append, ← Nat.shiftLeft_add_eq_or_of_lt count.isLt, Nat.shiftLeft_eq,
    Nat.mul_comm]

/-- A command word reads back as its tag and its count (30_encoding.md R104). -/
theorem toNat_memRead16_commandWord {m : ByteSpace} {a n : Nat}
    (h : Cells.wf unlistedByte Config.fileCap m = true) (ha : a + 1 < Config.fileCap) (tag : BitVec 2)
    (hn : n ≤ Config.countMax) :
    (memRead16 (memWrite16 m a (commandWord tag (BitVec.ofNat 14 n))) a).toNat = 16384 * tag.toNat + n := by
  have hcount : n < 2 ^ 14 := Nat.lt_succ_of_le hn
  rw [memRead16_memWrite16_same h ha, toNat_commandWord, BitVec.toNat_ofNat, Nat.mod_eq_of_lt hcount]

/-- The space after the bytes `f 0` to `f (n - 1)` are written from `a` on. -/
def writeBytes (f : Nat → Byte) (m : ByteSpace) (a n : Nat) : ByteSpace :=
  (List.range n).foldl (fun m k => memWrite8 m (a + k) (f k)) m

theorem writeBytes_succ (f : Nat → Byte) (m : ByteSpace) (a n : Nat) :
    writeBytes f m a (n + 1) = memWrite8 (writeBytes f m a n) (a + n) (f n) := by
  simp [writeBytes, List.range_succ]

theorem memRead8_writeBytes_ne (f : Nat → Byte) (m : ByteSpace) {a n b : Nat} (hb : b < a ∨ a + n ≤ b) :
    memRead8 (writeBytes f m a n) b = memRead8 m b := by
  induction n with
  | zero => rfl
  | succ n ih => rw [writeBytes_succ, memRead8_memWrite8_ne _ _ (by omega), ih (by omega)]

theorem writeBytes_spec (f : Nat → Byte) {size : Nat} {m : ByteSpace}
    (h : Cells.wf unlistedByte size m = true) {a n : Nat} (hn : a + n ≤ size) :
    Cells.wf unlistedByte size (writeBytes f m a n) = true ∧
      ∀ k < n, memRead8 (writeBytes f m a n) (a + k) = f k := by
  induction n with
  | zero => exact ⟨h, fun k hk => absurd hk k.not_lt_zero⟩
  | succ n ih =>
    obtain ⟨hwf, hbefore⟩ := ih (by omega)
    rw [writeBytes_succ]
    refine ⟨wf_memWrite8 hwf hn _, Nat.forall_lt_succ_right.2 ⟨fun k hk => ?_, ?_⟩⟩
    · rw [memRead8_memWrite8_ne _ _ (by omega), hbefore k hk]
    · exact memRead8_memWrite8_same hwf _ _

/-! ## Room in the stream -/

/-- The base is at most the larger one of R214, and `k` more bytes fit the stream (R215). -/
def Encoder.Room (e : Encoder) (k : Nat) : Prop :=
  e.base.toNat ≤ 776 ∧ e.wp.toNat + k ≤ e.base.toNat + 65535

theorem Encoder.Room.mono {e : Encoder} {j k : Nat} (h : e.Room k) (hjk : j ≤ k) : e.Room j :=
  ⟨h.1, (Nat.add_le_add_left hjk _).trans h.2⟩

/-- The base and the largest stream end inside EOUT. -/
theorem Encoder.Room.wp_le {e : Encoder} {k : Nat} (h : e.Room k) : e.wp.toNat + k ≤ 66311 := by
  obtain ⟨hbase, hroom⟩ := h
  omega

theorem Encoder.Room.toNat_wp_add {e : Encoder} {k : Nat} (h : e.Room k) :
    (e.wp + BitVec.ofNat 17 k).toNat = e.wp.toNat + k := by
  have hle := h.wp_le
  rw [BitVec.toNat_add, BitVec.toNat_ofNat]
  omega

theorem Encoder.Room.fits {e : Encoder} {k : Nat} (h : e.Room k) : e.fits k = true :=
  decide_eq_true h.2

theorem Encoder.fits_full {e : Encoder} {k : Nat} (h : e.base.toNat + 65535 < e.wp.toNat + k) :
    e.fits k = false := decide_eq_false h.not_ge

theorem Encoder.emit8_room {e : Encoder} (h : e.Room 1) (v : Byte) :
    e.emit8 v = .ok { e with eout := memWrite8 e.eout e.wp.toNat v, wp := e.wp + 1 } := by
  have hle := h.wp_le
  have hcap : e.wp.toNat < Config.fileCap := by simp only [Config.fileCap]; omega
  rw [Encoder.emit8, if_pos h.fits, Encoder.outByte, if_pos hcap]

theorem Encoder.outWord_inside (e : Encoder) {a : Nat} (ha : a + 1 < Config.fileCap) (v : Word16) :
    e.outWord a v = .ok { e with eout := memWrite16 e.eout a v } := if_pos ha

theorem Encoder.Room.word_inside {e : Encoder} (h : e.Room 2) : e.wp.toNat + 1 < Config.fileCap := by
  have hle := h.wp_le
  simp only [Config.fileCap]
  omega

theorem Encoder.emit16_room {e : Encoder} (h : e.Room 2) (v : Word16) :
    e.emit16 v = .ok { e with eout := memWrite16 e.eout e.wp.toNat v, wp := e.wp + 2 } := by
  rw [Encoder.emit16, if_pos h.fits, e.outWord_inside h.word_inside]

theorem Encoder.emit8_full {e : Encoder} (h : e.base.toNat + 65535 < e.wp.toNat + 1) (v : Byte) :
    e.emit8 v = .error (.raised .lengthOverflow e.pos.toNat) :=
  if_neg (Bool.eq_false_iff.1 (Encoder.fits_full h))

theorem Encoder.emit16_full {e : Encoder} (h : e.base.toNat + 65535 < e.wp.toNat + 2) (v : Word16) :
    e.emit16 v = .error (.raised .lengthOverflow e.pos.toNat) :=
  if_neg (Bool.eq_false_iff.1 (Encoder.fits_full h))

theorem Encoder.reserve16_full {e : Encoder} (h : e.base.toNat + 65535 < e.wp.toNat + 2) :
    e.reserve16 = .error (.raised .lengthOverflow e.pos.toNat) :=
  if_neg (Bool.eq_false_iff.1 (Encoder.fits_full h))

theorem Encoder.endPlane_full {e : Encoder} (h : e.base.toNat + 65535 < e.wp.toNat + 2)
    (table : Vector DacColour 58) : e.endPlane table = .error (.raised .lengthOverflow e.pos.toNat) := by
  rw [Encoder.endPlane, Encoder.emit16_full h]

end Sys2Proof.Machine
end

section
/-! PROOF. The runs of the encoder's walk (43_encoder_runs.md R217 to R220): both loops move over the positions
of one run, which is described once as the encoder after `n` of them; then what ends a run, and what aborts it. -/

namespace Sys2Proof.Machine

/-! ## The positions of a run -/

/-- The position `k` places on from `POS` is one of a run of transparent or of opaque positions. -/
def Encoder.InRun (e : Encoder) (sent : Colour) (transparent : Bool) (k : Nat) : Prop :=
  e.pos.toNat + 4 * k < Config.canvasSize ∧ e.transparent sent (e.pos.toNat + 4 * k) = transparent

/-- A run goes on from the position it has reached. -/
theorem Encoder.inRun_reached {e e' : Encoder} {sent : Colour} {b : Bool} {n : Nat}
    (hpos : e'.pos.toNat = e.pos.toNat + 4 * n) (hview : e'.transparent sent = e.transparent sent) :
    e'.InRun sent b 0 ↔ e.InRun sent b n := by
  simp only [Encoder.InRun, hview, hpos, Nat.mul_zero, Nat.add_zero]

/-- The guard of SkipRun's loop, and that of CopyRun's (R217, R219). -/
theorem Encoder.skipGuard_iff {e : Encoder} {sent : Colour} :
    (decide (e.pos.toNat < Config.canvasSize) && e.transparent sent e.pos.toNat) = true ↔
      e.InRun sent true 0 := by
  simp [Encoder.InRun]

theorem Encoder.copyGuard_iff {e : Encoder} {sent : Colour} :
    (decide (e.pos.toNat < Config.canvasSize) && !e.transparent sent e.pos.toNat) = true ↔
      e.InRun sent false 0 := by
  simp [Encoder.InRun]

/-- Of at most `bound` positions a run takes those up to the first that is none of it. -/
theorem exists_run_length (P : Nat → Prop) (bound : Nat) :
    ∃ n ≤ bound, (∀ k < n, P k) ∧ (n = bound ∨ ¬P n) := by
  induction bound with
  | zero => exact ⟨0, le_rfl, fun k hk => absurd hk k.not_lt_zero, .inl rfl⟩
  | succ bound ih =>
    obtain ⟨n, hn, hrun, rfl | hend⟩ := ih
    · by_cases hP : P n
      · exact ⟨n + 1, le_rfl, Nat.forall_lt_succ_right.2 ⟨hrun, hP⟩, .inl rfl⟩
      · exact ⟨n, n.le_succ, hrun, .inr hP⟩
    · exact ⟨n, hn.trans bound.le_succ, hrun, .inr hend⟩

/-- Past the positions of a run `POS` does not wrap. -/
theorem Encoder.toNat_pos_add {e : Encoder} {n : Nat}
    (h : ∀ k < n, e.pos.toNat + 4 * k < Config.canvasSize) :
    (e.pos + BitVec.ofNat 17 (4 * n)).toNat = e.pos.toNat + 4 * n := by
  cases n with
  | zero => simp
  | succ n =>
    have hlast := h n n.lt_succ_self
    simp only [Config.canvasSize] at hlast
    rw [BitVec.toNat_add, BitVec.toNat_ofNat]
    omega

/-! ## SKIP -/

/-- `e` after SkipRun's loop has counted `n` positions (R217). -/
def Encoder.counted (e : Encoder) (n : Nat) : Encoder :=
  { e with n := e.n + BitVec.ofNat 14 n, pos := e.pos + BitVec.ofNat 17 (4 * n) }

theorem Encoder.skipLoop_succ {sent : Colour} {e : Encoder} (m : Nat) (h : e.InRun sent true 0) :
    Encoder.skipLoop sent (m + 1) e = Encoder.skipLoop sent m { e with n := e.n + 1, pos := e.pos + 4 } :=
  if_pos (Encoder.skipGuard_iff.2 h)

theorem Encoder.skipLoop_stops {sent : Colour} {e : Encoder} {m : Nat}
    (h : m = 0 ∨ ¬e.InRun sent true 0) : Encoder.skipLoop sent m e = e := by
  cases m with
  | zero => rfl
  | succ m => exact if_neg (Encoder.skipGuard_iff.not.2 (h.resolve_left m.succ_ne_zero))

theorem Encoder.skipLoop_counted {sent : Colour} {e : Encoder} {n : Nat} (m : Nat)
    (h : ∀ k < n, e.InRun sent true k) :
    Encoder.skipLoop sent (n + m) e = Encoder.skipLoop sent m (e.counted n) := by
  induction n generalizing m with
  | zero => simp [Encoder.counted]
  | succ n ih =>
    obtain ⟨hbefore, hlast⟩ := Nat.forall_lt_succ_right.1 h
    have hpos : (e.counted n).pos.toNat = e.pos.toNat + 4 * n :=
      Encoder.toNat_pos_add fun k hk => (hbefore k hk).1
    have hreached : (e.counted n).InRun sent true 0 := (Encoder.inRun_reached hpos rfl).2 hlast
    rw [Nat.add_assoc, ih _ hbefore, Nat.add_comm 1, Encoder.skipLoop_succ m hreached]
    simp [Encoder.counted, BitVec.ofNat_add, BitVec.add_assoc, Nat.mul_add]

/-- `e` after SkipRun has counted a run of `n` positions. -/
def Encoder.skipped (e : Encoder) (n : Nat) : Encoder :=
  { e with n := BitVec.ofNat 14 n, pos := BitVec.ofNat 17 (e.pos.toNat + 4 * n) }

theorem Encoder.skipped_eq_counted (e : Encoder) (n : Nat) :
    e.skipped n = Encoder.counted { e with n := 0 } n := by
  simp [Encoder.counted, Encoder.skipped, BitVec.ofNat_add]

theorem Encoder.toNat_skipped_pos {sent : Colour} {e : Encoder} {n : Nat}
    (h : ∀ k < n, e.InRun sent true k) : (e.skipped n).pos.toNat = e.pos.toNat + 4 * n := by
  rw [Encoder.skipped_eq_counted]
  exact Encoder.toNat_pos_add fun k hk => (h k hk).1

/-- SkipRun's loop over a run of `n` positions. -/
theorem Encoder.skipLoop_run {sent : Colour} {e : Encoder} {n : Nat} (hn : n ≤ Config.countMax)
    (h : ∀ k < n, e.InRun sent true k) (hend : n = Config.countMax ∨ ¬e.InRun sent true n) :
    Encoder.skipLoop sent Config.countMax { e with n := 0 } = e.skipped n := by
  obtain ⟨m, hm⟩ := Nat.exists_eq_add_of_le hn
  have hreached : (e.skipped n).InRun sent true 0 ↔ e.InRun sent true n :=
    Encoder.inRun_reached (Encoder.toNat_skipped_pos h) rfl
  rw [hm, Encoder.skipLoop_counted (e := { e with n := 0 }) m h, ← Encoder.skipped_eq_counted]
  exact Encoder.skipLoop_stops (hend.imp (by omega) hreached.not.2)

/-- A run that reaches the end of its plane emits nothing (R217, R218). -/
theorem Encoder.skipRun_past {sent : Colour} {e : Encoder} {n : Nat} (hn : n ≤ Config.countMax)
    (h : ∀ k < n, e.InRun sent true k) (hpast : Config.canvasSize ≤ e.pos.toNat + 4 * n) :
    e.skipRun sent = .ok (e.skipped n) := by
  unfold Encoder.skipRun
  rw [Encoder.skipLoop_run hn h (.inr fun hin => hpast.not_gt hin.1)]
  exact if_neg ((Encoder.toNat_skipped_pos h).symm ▸ hpast.not_gt)

/-- Any other run emits its word (R217). -/
theorem Encoder.skipRun_inside {sent : Colour} {e : Encoder} {n : Nat} (hn : n ≤ Config.countMax)
    (h : ∀ k < n, e.InRun sent true k) (hend : n = Config.countMax ∨ ¬e.InRun sent true n)
    (hinside : e.pos.toNat + 4 * n < Config.canvasSize) :
    e.skipRun sent = (e.skipped n).emit16 (commandWord 1 (BitVec.ofNat 14 n)) := by
  unfold Encoder.skipRun
  rw [Encoder.skipLoop_run hn h hend]
  exact if_pos ((Encoder.toNat_skipped_pos h).symm ▸ hinside)

/-! ## COPY -/

/-- From `POS` on stand `n` opaque positions, of whose colours the map holds the indices `f` (R219). -/
def Encoder.Coded (e : Encoder) (sent : Colour) (f : Nat → Byte) (n : Nat) : Prop :=
  ∀ k < n, e.InRun sent false k ∧ lookupColour e.cim (e.pix sent (e.pos.toNat + 4 * k)) = some (f k)

theorem Encoder.Coded.pos_lt {e : Encoder} {sent : Colour} {f : Nat → Byte} {n : Nat}
    (h : e.Coded sent f n) : ∀ k < n, e.pos.toNat + 4 * k < Config.canvasSize := fun k hk => (h k hk).1.1

theorem Encoder.exists_coded {e : Encoder} {sent : Colour} {n : Nat} (h : ∀ k < n, e.InRun sent false k ∧
    lookupColour e.cim (e.pix sent (e.pos.toNat + 4 * k)) ≠ none) : ∃ f, e.Coded sent f n := by
  refine ⟨fun k => (lookupColour e.cim (e.pix sent (e.pos.toNat + 4 * k))).getD 0, fun k hk => ?_⟩
  obtain ⟨hrun, hmapped⟩ := h k hk
  exact ⟨hrun, (Option.getD_of_ne_none hmapped 0).symm⟩

/-- `e` after CopyRun's loop has emitted `n` indices (R219). -/
def Encoder.copied (e : Encoder) (f : Nat → Byte) (n : Nat) : Encoder :=
  { e with
    n := e.n + BitVec.ofNat 14 n
    pos := e.pos + BitVec.ofNat 17 (4 * n)
    wp := e.wp + BitVec.ofNat 17 n
    eout := writeBytes f e.eout e.wp.toNat n }

theorem Encoder.copied_succ {e : Encoder} (f : Nat → Byte) {n : Nat} (hroom : e.Room n) :
    e.copied f (n + 1) = { e.copied f n with
      n := (e.copied f n).n + 1
      pos := (e.copied f n).pos + 4
      wp := (e.copied f n).wp + 1
      eout := memWrite8 (e.copied f n).eout (e.copied f n).wp.toNat (f n) } := by
  simp only [Encoder.copied, hroom.toNat_wp_add]
  simp [writeBytes_succ, BitVec.ofNat_add, BitVec.add_assoc, Nat.mul_add]

theorem Encoder.Room.copied {e : Encoder} {n k : Nat} (h : e.Room (n + k)) (f : Nat → Byte) :
    (e.copied f n).Room k := by
  have hwp : (e.copied f n).wp.toNat = e.wp.toNat + n := (h.mono (Nat.le_add_right n k)).toNat_wp_add
  refine ⟨h.1, ?_⟩
  rw [hwp, Nat.add_assoc]
  exact h.2

theorem Encoder.copyLoop_stops {sent : Colour} {e : Encoder} {m : Nat}
    (h : m = 0 ∨ ¬e.InRun sent false 0) : Encoder.copyLoop sent m e = .ok e := by
  cases m with
  | zero => rfl
  | succ m => exact if_neg (Encoder.copyGuard_iff.not.2 (h.resolve_left m.succ_ne_zero))

/-- The loop at an opaque position looks its colour up first (R219). -/
theorem Encoder.copyLoop_unmapped {sent : Colour} {e : Encoder} (m : Nat) (h : e.InRun sent false 0)
    (hcolour : lookupColour e.cim (e.pix sent e.pos.toNat) = none) :
    Encoder.copyLoop sent (m + 1) e = .error (.raised .unmappedColor e.pos.toNat) := by
  rw [Encoder.copyLoop, if_pos (Encoder.copyGuard_iff.2 h), hcolour]

theorem Encoder.copyLoop_mapped {sent : Colour} {e : Encoder} {i : Byte} (m : Nat) (h : e.InRun sent false 0)
    (hcolour : lookupColour e.cim (e.pix sent e.pos.toNat) = some i) :
    Encoder.copyLoop sent (m + 1) e = (e.emit8 i >>= fun e' =>
      Encoder.copyLoop sent m { e' with n := e'.n + 1, pos := e'.pos + 4 }) := by
  rw [Encoder.copyLoop, if_pos (Encoder.copyGuard_iff.2 h), hcolour]
  dsimp only
  cases e.emit8 i <;> rfl

theorem Encoder.copyLoop_copied {sent : Colour} {e : Encoder} {f : Nat → Byte} {n : Nat} (m : Nat)
    (hroom : e.Room n) (h : e.Coded sent f n) :
    Encoder.copyLoop sent (n + m) e = Encoder.copyLoop sent m (e.copied f n) := by
  induction n generalizing m with
  | zero => simp [Encoder.copied, writeBytes]
  | succ n ih =>
    obtain ⟨hbefore, hrun, hcolour⟩ := Nat.forall_lt_succ_right.1 h
    have hpos : (e.copied f n).pos.toNat = e.pos.toNat + 4 * n :=
      Encoder.toNat_pos_add (Encoder.Coded.pos_lt hbefore)
    have hroom' := hroom.mono n.le_succ
    rw [← hpos] at hcolour
    have hreached : (e.copied f n).InRun sent false 0 := (Encoder.inRun_reached hpos rfl).2 hrun
    rw [Nat.add_assoc, ih _ hroom' hbefore, Nat.add_comm 1, Encoder.copyLoop_mapped m hreached hcolour,
      Encoder.emit8_room (hroom.copied f), Encoder.copied_succ f hroom']
    rfl

/-- `e` at the start of CopyRun's loop, past the placeholder of the count word (R215, R219). -/
def Encoder.reserved (e : Encoder) : Encoder := { e with ph := e.wp, wp := e.wp + 2, n := 0 }

theorem Encoder.Room.toNat_reserved_wp {e : Encoder} {n : Nat} (h : e.Room (2 + n)) :
    e.reserved.wp.toNat = e.wp.toNat + 2 := (h.mono (Nat.le_add_right 2 n)).toNat_wp_add

theorem Encoder.Room.reserved {e : Encoder} {n : Nat} (h : e.Room (2 + n)) : e.reserved.Room n := by
  refine ⟨h.1, ?_⟩
  rw [h.toNat_reserved_wp, Nat.add_assoc]
  exact h.2

/-- The indices emitted so far take `POS` to the place after their positions. -/
theorem Encoder.Coded.reached {e : Encoder} {sent : Colour} {f : Nat → Byte} {n : Nat} (h : e.Coded sent f n) :
    (e.reserved.copied f n).pos.toNat = e.pos.toNat + 4 * n ∧
      ((e.reserved.copied f n).InRun sent false 0 ↔ e.InRun sent false n) :=
  have hpos := Encoder.toNat_pos_add h.pos_lt
  ⟨hpos, Encoder.inRun_reached hpos rfl⟩

theorem Encoder.copyRun_room {sent : Colour} {e : Encoder} (hroom : e.Room 2) :
    e.copyRun sent = (Encoder.copyLoop sent Config.countMax e.reserved >>= fun e2 =>
      e2.outWord e2.ph.toNat (commandWord 3 e2.n)) := by
  rw [Encoder.copyRun, Encoder.reserve16, if_pos hroom.fits, Encoder.reserved]
  dsimp only
  generalize Encoder.copyLoop _ _ _ = r
  cases r <;> rfl

theorem Encoder.copyRun_full {sent : Colour} {e : Encoder} (h : e.base.toNat + 65535 < e.wp.toNat + 2) :
    e.copyRun sent = .error (.raised .lengthOverflow e.pos.toNat) := by
  rw [Encoder.copyRun, Encoder.reserve16_full h]

/-- The loop has gone over the positions whose colours are mapped. -/
theorem Encoder.copyLoop_reserved {sent : Colour} {e : Encoder} {f : Nat → Byte} {n m : Nat}
    (hm : Config.countMax = n + m) (hroom : e.Room (2 + n)) (h : e.Coded sent f n) :
    Encoder.copyLoop sent Config.countMax e.reserved =
      Encoder.copyLoop sent m (e.reserved.copied f n) := by
  rw [hm]
  exact Encoder.copyLoop_copied m hroom.reserved h

/-- `e` after CopyRun over `n` positions: the indices, then the count word before them (R219, R220). -/
def Encoder.copyDone (e : Encoder) (f : Nat → Byte) (n : Nat) : Encoder :=
  { e with
    n := BitVec.ofNat 14 n
    pos := e.pos + BitVec.ofNat 17 (4 * n)
    ph := e.wp
    wp := e.wp + BitVec.ofNat 17 (2 + n)
    eout := memWrite16 (writeBytes f e.eout (e.wp.toNat + 2) n) e.wp.toNat
      (commandWord 3 (BitVec.ofNat 14 n)) }

theorem Encoder.copyRun_done {sent : Colour} {e : Encoder} {f : Nat → Byte} {n : Nat}
    (hn : n ≤ Config.countMax) (hroom : e.Room (2 + n)) (h : e.Coded sent f n)
    (hend : n = Config.countMax ∨ ¬e.InRun sent false n) : e.copyRun sent = .ok (e.copyDone f n) := by
  have hroom2 := hroom.mono (Nat.le_add_right 2 n)
  obtain ⟨m, hm⟩ := Nat.exists_eq_add_of_le hn
  have hwp : (e.wp + 2).toNat = e.wp.toNat + 2 := hroom.toNat_reserved_wp
  obtain ⟨-, hreached⟩ := h.reached
  rw [Encoder.copyRun_room hroom2, Encoder.copyLoop_reserved hm hroom h,
    Encoder.copyLoop_stops (hend.imp (by omega) hreached.not.2)]
  refine (Encoder.outWord_inside _ hroom2.word_inside _).trans ?_
  simp only [Encoder.copied, Encoder.reserved, hwp]
  simp [Encoder.copyDone, BitVec.ofNat_add, BitVec.add_assoc]

/-- What stops the loop at the position after `n` mapped ones stops the run. -/
theorem Encoder.copyRun_aborts {sent : Colour} {e : Encoder} {f : Nat → Byte} {n : Nat} {st : Stop}
    (hn : n < Config.countMax) (hroom : e.Room (2 + n)) (h : e.Coded sent f n)
    (hlast : ∀ m, Encoder.copyLoop sent (m + 1) (e.reserved.copied f n) = .error st) :
    e.copyRun sent = .error st := by
  obtain ⟨m, hm⟩ := Nat.exists_eq_add_of_lt hn
  rw [Encoder.copyRun_room (hroom.mono (Nat.le_add_right 2 n)),
    Encoder.copyLoop_reserved (m := m + 1) hm hroom h, hlast]
  rfl

theorem Encoder.copyRun_unmapped {sent : Colour} {e : Encoder} {f : Nat → Byte} {n : Nat}
    (hn : n < Config.countMax) (hroom : e.Room (2 + n)) (h : e.Coded sent f n) (hrun : e.InRun sent false n)
    (hcolour : lookupColour e.cim (e.pix sent (e.pos.toNat + 4 * n)) = none) :
    e.copyRun sent = .error (.raised .unmappedColor (e.pos.toNat + 4 * n)) := by
  obtain ⟨hpos, hreached⟩ := h.reached
  rw [← hpos] at hcolour ⊢
  exact Encoder.copyRun_aborts hn hroom h fun m => Encoder.copyLoop_unmapped m (hreached.2 hrun) hcolour

theorem Encoder.copyRun_overflows {sent : Colour} {e : Encoder} {f : Nat → Byte} {n : Nat}
    (hn : n < Config.countMax) (hroom : e.Room (2 + n)) (h : e.Coded sent f (n + 1))
    (hfull : e.wp.toNat + 2 + n = e.base.toNat + 65535) :
    e.copyRun sent = .error (.raised .lengthOverflow (e.pos.toNat + 4 * n)) := by
  obtain ⟨hbefore, hrun, hcolour⟩ := Nat.forall_lt_succ_right.1 h
  obtain ⟨hpos, hreached⟩ := Encoder.Coded.reached hbefore
  have hwp : (e.reserved.copied f n).wp.toNat = e.wp.toNat + 2 + n :=
    hroom.reserved.toNat_wp_add.trans (congrArg (· + n) hroom.toNat_reserved_wp)
  have hover : e.base.toNat + 65535 < (e.reserved.copied f n).wp.toNat + 1 := by omega
  rw [← hpos] at hcolour ⊢
  refine Encoder.copyRun_aborts hn hroom hbefore fun m => ?_
  rw [Encoder.copyLoop_mapped m (hreached.2 hrun) hcolour, Encoder.emit8_full hover]
  rfl

/-! ## The statements -/

/-- Settles O36: the run goes on as far as its guard holds, and its end decides whether its word is emitted. -/
theorem skipRunCountsTransparent : Obligations.SkipRunCountsTransparent := by
  intro s s1 hmoves hwf hbusy hplane hpos htransparent
  obtain ⟨n, hn, hrun, hend⟩ := exists_run_length (s.enc.InRun s.par.sentinel true) Config.countMax
  have hfirst : s.enc.InRun s.par.sentinel true 0 := ⟨hpos, htransparent⟩
  have hone : n ≠ 0 := by
    rintro rfl
    exact hend.elim nofun (absurd hfirst)
  have hstep := Encoder.step_skipRun hplane hpos htransparent
  rw [hmoves.enc_eq]
  refine ⟨n, Nat.one_le_iff_ne_zero.2 hone, hn, hrun, fun hpast => ?_, fun hinside =>
    ⟨hend.symm.imp_left fun hstop => ?_, fun hbase hroom => ?_⟩⟩
  · exact hmoves.step_next hbusy (hstep.trans (Encoder.skipRun_past hn hrun hpast))
  · exact Bool.eq_false_iff.2 fun h => hstop ⟨hinside, h⟩
  · have hroom2 : (s.enc.skipped n).Room 2 := ⟨hbase, hroom⟩
    rw [Encoder.skipRun_inside hn hrun hend hinside, Encoder.emit16_room hroom2] at hstep
    refine ⟨_, hmoves.step_next hbusy hstep, rfl, Encoder.toNat_skipped_pos hrun, hroom2.toNat_wp_add, ?_,
      fun a h0 h1 => memRead8_memWrite16_ne _ _ h0 h1⟩
    exact toNat_memRead16_commandWord (Memory.wf_eout hwf) hroom2.word_inside 1 hn

/-- Settles O37: the indices are written after the placeholder, and the count word into it. -/
theorem copyRunEmitsIndices : Obligations.CopyRunEmitsIndices := by
  intro s s1 n hmoves hwf hbusy hplane hone hn hrun hend hbase hfits
  have hroom : s.enc.Room (2 + n) := ⟨hbase, by omega⟩
  have hroom2 := hroom.mono (Nat.le_add_right 2 n)
  obtain ⟨f, hcoded⟩ : ∃ f, s.enc.Coded s.par.sentinel f n :=
    Encoder.exists_coded fun k hk => and_assoc.2 (hrun k hk)
  obtain ⟨⟨hinside, hopaque⟩, -⟩ := hcoded 0 hone
  have hstop : n = Config.countMax ∨ ¬s.enc.InRun s.par.sentinel false n := by
    rcases hend with hpast | htransparent | hmax
    · exact .inr fun hin => hpast.not_gt hin.1
    · exact .inr fun hin => Bool.false_ne_true (hin.2.symm.trans htransparent)
    · exact .inl hmax
  have hstep := (Encoder.step_copyRun hplane hinside hopaque).trans
    (Encoder.copyRun_done hn hroom hcoded hstop)
  have hle := hroom.wp_le
  obtain ⟨hindices, hread⟩ := writeBytes_spec f (Memory.wf_eout hwf)
    (show s.enc.wp.toNat + 2 + n ≤ Config.fileCap by simp only [Config.fileCap]; omega)
  rw [hmoves.enc_eq]
  refine ⟨_, hmoves.step_next hbusy hstep, rfl, Encoder.toNat_pos_add hcoded.pos_lt, ?_,
    toNat_memRead16_commandWord hindices hroom2.word_inside 3 hn, fun k hk => ?_, fun a ha => ?_⟩
  · exact hroom.toNat_wp_add.trans (Nat.add_assoc ..).symm
  · rw [(hcoded k hk).2, ← hread k hk]
    exact congrArg some (memRead8_memWrite16_ne _ _ (by omega) (by omega)).symm
  · refine (memRead8_memWrite16_ne _ _ (by omega) (by omega)).trans (memRead8_writeBytes_ne f _ ?_)
    omega

/-- Settles O38: the lookup of the position after the indices emitted so far finds nothing. -/
theorem unmappedColourAbortsEncode : Obligations.UnmappedColourAbortsEncode := by
  intro s s1 n hmoves hbusy hplane hn hcolours hrun hnone hbase hfits
  have hroom : s.enc.Room (2 + n) := ⟨hbase, by omega⟩
  obtain ⟨f, hcoded⟩ := Encoder.exists_coded fun k hk => ⟨hrun k hk.le, hcolours k hk⟩
  obtain ⟨hinside, hopaque⟩ := hrun 0 n.zero_le
  have hlast : s.enc.pos.toNat + 4 * n < 64000 := (hrun n le_rfl).1
  refine hmoves.step_faults (c := .unmappedColor) hbusy (by omega) ?_
  rw [Encoder.step_copyRun hplane hinside hopaque]
  exact Encoder.copyRun_unmapped hn hroom hcoded (hrun n le_rfl) hnone

/-- Settles O39: each emit that lacks room raises at `POS` as its run has moved it. -/
theorem streamLengthIsBounded : Obligations.StreamLengthIsBounded := by
  intro s s1 n hmoves hbusy hplane
  refine ⟨fun hfull hstart => ?_, fun hfull hone hn hinside hrun hend => ?_, fun hfull hn hbase hrun => ?_⟩
  · refine hmoves.step_faults (c := .lengthOverflow) hbusy s.enc.pos.isLt ?_
    by_cases hpos : s.enc.pos.toNat < 64000
    · rw [Encoder.step_copyRun hplane hpos (hstart.resolve_left hpos.not_ge), Encoder.copyRun_full hfull]
    · rw [Encoder.step_endPlane hplane (Nat.le_of_not_lt hpos), Encoder.endPlane_full hfull]
  · have hcount : ∀ k < n, s.enc.InRun s.par.sentinel true k := fun k hk =>
      ⟨(show _ < 64000 by omega), hrun k hk⟩
    have hstop : n = Config.countMax ∨ ¬s.enc.InRun s.par.sentinel true n :=
      hend.symm.imp_right fun hopaque hin => Bool.false_ne_true (hopaque.symm.trans hin.2)
    obtain ⟨hfirst, htransparent⟩ := hcount 0 hone
    have hpos := Encoder.toNat_skipped_pos hcount
    have hfull' : (s.enc.skipped n).base.toNat + 65535 < (s.enc.skipped n).wp.toNat + 2 := hfull
    refine hmoves.step_faults (c := .lengthOverflow) hbusy (by omega) ?_
    rw [Encoder.step_skipRun hplane hfirst htransparent,
      Encoder.skipRun_inside hn hcount hstop hinside, Encoder.emit16_full hfull', hpos]
  · have hroom : s.enc.Room (2 + n) := ⟨hbase, by omega⟩
    obtain ⟨f, hcoded⟩ : ∃ f, s.enc.Coded s.par.sentinel f (n + 1) :=
      Encoder.exists_coded fun k hk => and_assoc.2 (hrun k (Nat.le_of_lt_succ hk))
    obtain ⟨⟨hinside, hopaque⟩, -⟩ := hcoded 0 n.succ_pos
    have hlast := (hrun n le_rfl).1
    refine hmoves.step_faults (c := .lengthOverflow) hbusy (by omega) ?_
    rw [Encoder.step_copyRun hplane hinside hopaque]
    exact Encoder.copyRun_overflows hn hroom hcoded hfull

end Sys2Proof.Machine
end

section
/-! PROOF. The ends of the planes (43_encoder_runs.md R216, R221, R224 to R226): the next plane, or the header
and the palette in front of the stream. -/

namespace Sys2Proof.Machine

/-! ## Words of the header -/

theorem memRead16_memWrite16_ne (m : ByteSpace) {a b : Nat} (v : Word16) (h : b + 1 < a ∨ a + 1 < b) :
    memRead16 (memWrite16 m a v) b = memRead16 m b := by
  rw [memRead16, memRead8_memWrite16_ne _ _ (by omega) (by omega),
    memRead8_memWrite16_ne _ _ (by omega) (by omega), ← memRead16]

/-- EOUT with the four header words (R225). -/
def headerWords (m : ByteSpace) (hasPal len gw gh : Word16) : ByteSpace :=
  memWrite16 (memWrite16 (memWrite16 (memWrite16 m 0 hasPal) 2 len) 4 gw) 6 gh

theorem memRead8_headerWords_ne (m : ByteSpace) (hasPal len gw gh : Word16) {a : Nat} (ha : 8 ≤ a) :
    memRead8 (headerWords m hasPal len gw gh) a = memRead8 m a := by
  simp only [headerWords]
  iterate 4 rw [memRead8_memWrite16_ne _ _ (by omega) (by omega)]

theorem headerWords_spec {m : ByteSpace} (h : Cells.wf unlistedByte Config.fileCap m = true)
    (hasPal len gw gh : Word16) :
    Cells.wf unlistedByte Config.fileCap (headerWords m hasPal len gw gh) = true ∧
      memRead16 (headerWords m hasPal len gw gh) 0 = hasPal ∧
      memRead16 (headerWords m hasPal len gw gh) 2 = len ∧
      memRead16 (headerWords m hasPal len gw gh) 4 = gw ∧
      memRead16 (headerWords m hasPal len gw gh) 6 = gh := by
  have h0 := wf_memWrite16 h (show 0 + 1 < Config.fileCap by decide) hasPal
  have h2 := wf_memWrite16 h0 (show 2 + 1 < Config.fileCap by decide) len
  have h4 := wf_memWrite16 h2 (show 4 + 1 < Config.fileCap by decide) gw
  unfold headerWords
  refine ⟨wf_memWrite16 h4 (by decide) gh, ?_, ?_, ?_, memRead16_memWrite16_same h4 (by decide) gh⟩
  · iterate 3 rw [memRead16_memWrite16_ne _ _ (by decide)]
    exact memRead16_memWrite16_same h (by decide) hasPal
  · iterate 2 rw [memRead16_memWrite16_ne _ _ (by decide)]
    exact memRead16_memWrite16_same h0 (by decide) len
  · rw [memRead16_memWrite16_ne _ _ (by decide)]
    exact memRead16_memWrite16_same h2 (by decide) gw

/-! ## Bytes of the palette -/

/-- Byte `k` of a palette in DAC form, R, G and B of each entry (R226, 30_encoding.md R103). -/
def paletteByte (p : Vector Colour 256) (k : Nat) : Byte :=
  let c := Table.get p (BitVec.ofNat 8 (k / 3))
  (toDac (if k % 3 = 0 then red c else if k % 3 = 1 then green c else blue c)).setWidth 8

theorem paletteByte_entry (p : Vector Colour 256) (i : Nat) :
    paletteByte p (3 * i) = (toDac (red (Table.get p (BitVec.ofNat 8 i)))).setWidth 8 ∧
      paletteByte p (3 * i + 1) = (toDac (green (Table.get p (BitVec.ofNat 8 i)))).setWidth 8 ∧
      paletteByte p (3 * i + 2) = (toDac (blue (Table.get p (BitVec.ofNat 8 i)))).setWidth 8 := by
  have hdiv1 : (3 * i + 1) / 3 = i := by omega
  have hdiv2 : (3 * i + 2) / 3 = i := by omega
  simp [paletteByte, hdiv1, hdiv2, Nat.add_mod]

/-- The embedded palette is 768 bytes in a row after the header. -/
theorem embedBytes_eq_writeBytes (p : Vector Colour 256) (m : ByteSpace) :
    embedBytes p m = writeBytes (paletteByte p) m 8 (3 * 256) := by
  rw [embedBytes]
  generalize 256 = n
  induction n with
  | zero => rfl
  | succ n ih =>
    obtain ⟨hred, hgreen, hblue⟩ := paletteByte_entry p n
    rw [List.range_succ, List.foldl_append, ih, Nat.mul_succ, writeBytes_succ, writeBytes_succ, writeBytes_succ,
      hred, hgreen, hblue]
    rfl

theorem toNat_dacByte (v : Byte) : ((toDac v).setWidth 8).toNat = v.toNat / 4 := by
  have hv := v.isLt
  simp only [toDac, BitVec.toNat_setWidth, BitVec.toNat_ushiftRight, Nat.shiftRight_eq_div_pow]
  omega

theorem memRead8_embedBytes_ne (p : Vector Colour 256) (m : ByteSpace) {a : Nat} (ha : a < 8 ∨ 776 ≤ a) :
    memRead8 (embedBytes p m) a = memRead8 m a := by
  rw [embedBytes_eq_writeBytes]
  exact memRead8_writeBytes_ne _ _ ha

/-- The bytes of entry `i` in the file are its channels without their two lowest bits (R226). -/
theorem embedBytes_entry (p : Vector Colour 256) {m : ByteSpace}
    (h : Cells.wf unlistedByte Config.fileCap m = true) (i : Byte) :
    (memRead8 (embedBytes p m) (8 + 3 * i.toNat)).toNat = (red (Table.get p i)).toNat / 4 ∧
      (memRead8 (embedBytes p m) (8 + 3 * i.toNat + 1)).toNat = (green (Table.get p i)).toNat / 4 ∧
      (memRead8 (embedBytes p m) (8 + 3 * i.toNat + 2)).toNat = (blue (Table.get p i)).toNat / 4 := by
  have hi : i.toNat < 256 := i.isLt
  obtain ⟨-, hread⟩ := writeBytes_spec (paletteByte p) h (show 8 + 3 * 256 ≤ Config.fileCap by decide)
  obtain ⟨hred, hgreen, hblue⟩ := paletteByte_entry p i.toNat
  rw [BitVec.ofNat_toNat, BitVec.setWidth_eq] at hred hgreen hblue
  rw [embedBytes_eq_writeBytes, hread _ (by omega), Nat.add_assoc, hread _ (by omega), Nat.add_assoc,
    hread _ (by omega), hred, hgreen, hblue]
  exact ⟨toNat_dacByte _, toNat_dacByte _, toNat_dacByte _⟩

/-- EOUT with the palette, when one is embedded. -/
def withPalette (hasPal : Word16) (p : Vector Colour 256) (m : ByteSpace) : ByteSpace :=
  if hasPal = 1 then embedBytes p m else m

theorem memRead8_withPalette_ne (hasPal : Word16) (p : Vector Colour 256) (m : ByteSpace) {a : Nat}
    (ha : a < 8 ∨ 8 + 768 * hasPal.toNat ≤ a) : memRead8 (withPalette hasPal p m) a = memRead8 m a := by
  unfold withPalette
  split
  · next hpal =>
    subst hpal
    exact memRead8_embedBytes_ne p m ha
  · rfl

theorem memRead16_withPalette_header (hasPal : Word16) (p : Vector Colour 256) (m : ByteSpace) {a : Nat}
    (ha : a + 1 < 8) : memRead16 (withPalette hasPal p m) a = memRead16 m a := by
  rw [memRead16, memRead8_withPalette_ne _ _ _ (.inl (by omega)), memRead8_withPalette_ne _ _ _ (.inl ha),
    ← memRead16]

/-! ## The end of a plane -/

/-- `e` after the end-of-plane word (R215, R221). -/
def Encoder.ended (e : Encoder) : Encoder :=
  { e with eout := memWrite16 e.eout e.wp.toNat 0, wp := e.wp + 2 }

theorem Encoder.endPlane_next {e : Encoder} (hroom : e.Room 2) (hplane : e.plane.toNat < 3)
    (table : Vector DacColour 58) :
    e.endPlane table = .ok { e.ended with plane := e.plane + 1, pos := (e.plane + 1).setWidth 17 } := by
  have hnext : (e.plane + 1).toNat < Config.planes := by
    rw [plane_succ_toNat (hplane.trans (by decide))]
    exact Nat.succ_lt_succ hplane
  rw [Encoder.endPlane, Encoder.emit16_room hroom]
  exact if_pos hnext

/-- The palette that an encode embeds (R226). -/
def Encoder.activePalette (e : Encoder) (table : Vector DacColour 58) : Vector Colour 256 :=
  if e.patchEn then patchPalette table e.xpal else e.xpal

/-- `e` after the end of plane 3 (R221, R224 to R226, 44_encoder_visibility.md R244). -/
def Encoder.headed (e : Encoder) (p : Vector Colour 256) : Encoder :=
  let len := BitVec.ofNat 16 (e.ended.wp.toNat - e.base.toNat)
  { e with
    plane := 4, row := 0, pending := 0, wp := e.wp + 2, csLen := len
    apal := if e.hasPal = 1 then p else e.apal
    eout := withPalette e.hasPal p (headerWords e.ended.eout e.hasPal len e.gw e.gh) }

theorem Encoder.endPlane_last {e : Encoder} (hroom : e.Room 2) (hplane : e.plane.toNat = 3)
    (table : Vector DacColour 58) : e.endPlane table = .ok (e.headed (e.activePalette table)) := by
  have hthree : e.plane = 3 := BitVec.eq_of_toNat_eq hplane
  rw [Encoder.endPlane, Encoder.emit16_room hroom]
  simp only [hthree, Encoder.embedPalette, Encoder.headed, withPalette]
  by_cases hpal : e.hasPal = 1
  · simp only [Encoder.writeHeader, hpal, if_true]
    rfl
  · simp only [Encoder.writeHeader, hpal, if_false]
    rfl

/-- Settles O40: the word goes to `WP`, and the next plane starts at the position of its own number. -/
theorem endOfPlaneEmitsEop : Obligations.EndOfPlaneEmitsEop := by
  intro s s1 hmoves hwf hbusy hplane hpos hbase hfits
  have hroom : s.enc.Room 2 := ⟨hbase, hfits⟩
  have hplane4 : s.enc.plane.toNat < Config.planes := hplane.trans (by decide)
  have hnext := plane_succ_toNat hplane4
  have hstep := (Encoder.step_endPlane hplane4 hpos).trans (Encoder.endPlane_next hroom hplane s.par.patchTable)
  rw [hmoves.enc_eq]
  refine ⟨_, hmoves.step_next hbusy hstep, rfl, hnext, ?_, hroom.toNat_wp_add, ?_,
    fun a h0 h1 => memRead8_memWrite16_ne s.enc.eout 0 h0 h1⟩
  · refine (BitVec.toNat_setWidth ..).trans ?_
    rw [hnext]
    omega
  · exact congrArg BitVec.toNat (memRead16_memWrite16_same (Memory.wf_eout hwf) hroom.word_inside 0)

/-- Settles O41: the header and the palette lie before the stream, whose bytes they leave alone. -/
theorem lastPlaneWritesHeaderAndPalette : Obligations.LastPlaneWritesHeaderAndPalette := by
  rintro s s1 p hmoves hwf hbusy hplane hpos hpal hbase hlow hfits rfl
  have hroom : s.enc.Room 2 := ⟨by omega, hfits⟩
  have hstep := (Encoder.step_endPlane (par := s.par) (hplane.trans_lt (by decide)) hpos).trans
    (Encoder.endPlane_last hroom hplane s.par.patchTable)
  obtain ⟨hheader, hflag, hlen, hgw, hgh⟩ := headerWords_spec
    (wf_memWrite16 (Memory.wf_eout hwf) hroom.word_inside 0) s.enc.hasPal
    (BitVec.ofNat 16 (s.enc.ended.wp.toNat - s.enc.base.toNat)) s.enc.gw s.enc.gh
  have hstream (a : Nat) (ha : s.enc.base.toNat ≤ a) :
      memRead8 (s.enc.headed (s.enc.activePalette s.par.patchTable)).eout a =
        memRead8 (memWrite16 s.enc.eout s.enc.wp.toNat 0) a :=
    (memRead8_withPalette_ne _ _ _ (.inr (hbase ▸ ha))).trans
      (memRead8_headerWords_ne _ _ _ _ _ (by omega))
  rw [hmoves.enc_eq]
  refine ⟨_, hmoves.step_next hbusy hstep, rfl, hroom.toNat_wp_add, ?_, ?_,
    (memRead16_withPalette_header _ _ _ (by decide)).trans hflag,
    (memRead16_withPalette_header _ _ _ (by decide)).trans hlen,
    (memRead16_withPalette_header _ _ _ (by decide)).trans hgw,
    (memRead16_withPalette_header _ _ _ (by decide)).trans hgh,
    fun hembedded i => ?_, fun a ha h0 h1 => ?_⟩
  · have hwp : s.enc.ended.wp.toNat = s.enc.wp.toNat + 2 := hroom.toNat_wp_add
    refine (BitVec.toNat_ofNat ..).trans ?_
    rw [hwp]
    omega
  · refine Eq.trans ?_ (memRead16_memWrite16_same (Memory.wf_eout hwf) hroom.word_inside 0)
    exact congrArg₂ wordOfBytes (hstream _ hlow) (hstream _ (hlow.trans (Nat.le_succ _)))
  · have hone : s.enc.hasPal = 1 := BitVec.eq_of_toNat_eq hembedded
    simp only [Encoder.headed, withPalette, hone, if_true]
    exact embedBytes_entry _ (hone ▸ hheader) i
  · exact (hstream a ha).trans (memRead8_memWrite16_ne _ _ h0 h1)

end Sys2Proof.Machine
end

section
/-! PROOF. Scenario S5 of 95_test_vectors.md: the walk of an encode of a transparent canvas, plane by plane and
row by row. -/

namespace Sys2Proof.Machine

/-! ## Several steps of a running encoder -/

/-- From `e` a running encoder comes to `e'` in `k` steps. -/
inductive Encoder.Steps (par : Config.Params) : Nat → Encoder → Encoder → Prop
  | zero (e : Encoder) : Steps par 0 e e
  | succ {k : Nat} {e e1 e' : Encoder} (hbusy : e.busy = true) (hstep : e.step par = .ok e1)
      (h : Steps par k e1 e') : Steps par (k + 1) e e'

theorem Encoder.Steps.trans {par : Config.Params} {j k : Nat} {e e1 e2 : Encoder}
    (h1 : Encoder.Steps par j e e1) (h2 : Encoder.Steps par k e1 e2) : Encoder.Steps par (j + k) e e2 := by
  induction h1 with
  | zero => rwa [Nat.zero_add]
  | succ hbusy hstep _ ih =>
    rw [Nat.add_right_comm]
    exact .succ hbusy hstep (ih h2)

theorem Encoder.Steps.snoc {par : Config.Params} {k : Nat} {e e1 e2 : Encoder}
    (h : Encoder.Steps par k e e1) (hbusy : e1.busy = true) (hstep : e1.step par = .ok e2) :
    Encoder.Steps par (k + 1) e e2 := h.trans (.succ hbusy hstep (.zero e2))

/-- With nothing on the agenda and DEC idle the machine runs as its encoder steps (log 3). -/
theorem core_run_of_steps {par : Config.Params} {k : Nat} {e e' : Encoder} (h : Encoder.Steps par k e e')
    {s : State} (hagenda : s.agenda = []) (hdec : s.dec.busy = false) (hpar : s.par = par) (henc : s.enc = e) :
    Sys2Proof.core.run k s = .next { s with enc := e' } := by
  induction h generalizing s with
  | zero e => rw [← henc]; rfl
  | @succ k e e1 e' hbusy hstep _ ih =>
    subst hpar henc
    have hmoves : s.EncMoves s := .inl ⟨hagenda, hdec, rfl⟩
    have hcore : Sys2Proof.core.step s = .next { s with enc := e1 } := hmoves.step_next hbusy hstep
    have hrun : Sys2Proof.core.run (k + 1) s = Sys2Proof.core.run k { s with enc := e1 } := by
      simp only [Host.Core.run, hcore]
    exact hrun.trans (ih hagenda hdec rfl rfl)

/-! ## The words of a file -/

/-- The words of number `lo` up to `n`, each at twice its number, are those of the file `f`. -/
def HoldsWords (m : ByteSpace) (f : Nat → Word16) (lo n : Nat) : Prop :=
  ∀ j, lo ≤ j → j < n → memRead16 m (2 * j) = f j

theorem HoldsWords.append {m : ByteSpace} {f : Nat → Word16} {lo n : Nat} (h : HoldsWords m f lo n)
    (hm : Cells.wf unlistedByte Config.fileCap m = true) (hn : 2 * n + 1 < Config.fileCap) :
    HoldsWords (memWrite16 m (2 * n) (f n)) f lo (n + 1) := by
  intro j hlo hj
  rcases Nat.lt_succ_iff_lt_or_eq.1 hj with hlt | rfl
  · rw [memRead16_memWrite16_ne _ _ (.inl (by omega)), h j hlo hlt]
  · exact memRead16_memWrite16_same hm hn _

/-- The words of the file of a transparent canvas: header, four EOP words, and for each row (80, 0). -/
def emptyFile (gw gh : Word16) : Nat → Word16
  | 0 => 0
  | 1 => 8
  | 2 => gw
  | 3 => gh
  | j + 4 => if j < 4 ∨ j % 2 = 1 then 0 else 80

theorem emptyFile_stream (gw gh : Word16) {k : Nat} (hk : k < 4) : emptyFile gw gh (4 + k) = 0 := by
  rw [Nat.add_comm]
  exact if_pos (.inl hk)

theorem emptyFile_row (gw gh : Word16) (y : Nat) :
    emptyFile gw gh (8 + 2 * y) = 80 ∧ emptyFile gw gh (8 + 2 * y + 1) = 0 := by
  rw [show 8 + 2 * y = 4 + 2 * y + 4 by omega]
  exact ⟨if_neg (by omega), if_pos (by omega)⟩

/-! ## The walk -/

/-- `e` runs over a transparent canvas, without a palette, for a grid of `gw` by `gh`. -/
structure Encoder.EmptyWalk (gw gh : Word16) (sent : Colour) (e : Encoder) : Prop where
  busy   : e.busy = true
  err    : e.err = false
  hasPal : e.hasPal = 0
  base   : e.base = 8
  gw     : e.gw = gw
  gh     : e.gh = gh
  view   : ∀ pos < Config.canvasSize, e.transparent sent pos = true
  memory : Cells.wf unlistedByte Config.fileCap e.eout = true

/-- `e` has `p` planes behind it, whose words stand in the stream (R216 to R218, R221). -/
structure Encoder.EmptyPlanes (gw gh : Word16) (sent : Colour) (p : Nat) (e : Encoder) : Prop where
  walk  : e.EmptyWalk gw gh sent
  plane : e.plane = BitVec.ofNat 3 p
  pos   : e.pos = BitVec.ofNat 17 p
  wp    : e.wp = BitVec.ofNat 17 (8 + 2 * p)
  words : HoldsWords e.eout (emptyFile gw gh) 4 (4 + p)

/-- SkipRun over a whole plane emits nothing, and the next step ends the plane (R216, R218). -/
theorem Encoder.step_emptyPlane {e : Encoder} {par : Config.Params} (hplane : e.plane.toNat < Config.planes)
    (hpos : e.pos.toNat < Config.planes)
    (hempty : ∀ pos < Config.canvasSize, e.transparent par.sentinel pos = true) :
    ∃ n, e.step par = .ok (e.skipped n) ∧
      (e.skipped n).step par = (e.skipped n).endPlane par.patchTable := by
  -- A variable in place of the numeral: it keeps the unifier from unfolding 16000.
  obtain ⟨n, hn⟩ : ∃ n, n = 16000 := ⟨_, rfl⟩
  simp only [Config.planes] at hpos
  have hpast : Config.canvasSize ≤ e.pos.toNat + 4 * n := by simp only [Config.canvasSize]; omega
  have hrun : ∀ k < n, e.InRun par.sentinel true k := fun k hk => by
    have hin : e.pos.toNat + 4 * k < Config.canvasSize := by simp only [Config.canvasSize]; omega
    exact ⟨hin, hempty _ hin⟩
  obtain ⟨hinside, htransparent⟩ := hrun 0 (by omega)
  refine ⟨n, ?_, Encoder.step_endPlane hplane ((Encoder.toNat_skipped_pos hrun).symm ▸ hpast)⟩
  have hcount : n ≤ Config.countMax := by simp only [Config.countMax]; omega
  exact (Encoder.step_skipRun hplane hinside htransparent).trans (Encoder.skipRun_past hcount hrun hpast)

section Walk

variable {gw gh : Word16} {e : Encoder}

theorem Encoder.EmptyPlanes.toNat_plane {sent : Colour} {p : Nat} (h : e.EmptyPlanes gw gh sent p)
    (hp : p < 4) : e.plane.toNat = p := by
  rw [h.plane, BitVec.toNat_ofNat]
  omega

theorem Encoder.EmptyPlanes.toNat_wp {sent : Colour} {p : Nat} (h : e.EmptyPlanes gw gh sent p)
    (hp : p < 4) : e.wp.toNat = 2 * (4 + p) := by
  rw [h.wp, BitVec.toNat_ofNat]
  omega

theorem Encoder.EmptyPlanes.room {sent : Colour} {p : Nat} (h : e.EmptyPlanes gw gh sent p)
    (hp : p < 4) (n : Nat) : (e.skipped n).Room 2 := by
  have hwp := h.toNat_wp hp
  have hbase : e.base.toNat = 8 := congrArg BitVec.toNat h.walk.base
  refine ⟨hbase.trans_le (by decide), ?_⟩
  change e.wp.toNat + 2 ≤ e.base.toNat + 65535
  omega

/-- Over an empty plane an encoder takes two steps: the run, then the end of the plane. -/
theorem Encoder.EmptyPlanes.steps {par : Config.Params} {p : Nat} (h : e.EmptyPlanes gw gh par.sentinel p)
    (hp : p < 4) : ∃ n, e.step par = .ok (e.skipped n) ∧
      (e.skipped n).step par = (e.skipped n).endPlane par.patchTable := by
  refine Encoder.step_emptyPlane ((h.toNat_plane hp).trans_lt hp) ?_ h.walk.view
  rw [h.pos, BitVec.toNat_ofNat]
  exact (Nat.mod_le _ _).trans_lt hp

/-- The end-of-plane word of plane `p` is the next word of the file. -/
theorem Encoder.EmptyPlanes.ended {sent : Colour} {p : Nat} (h : e.EmptyPlanes gw gh sent p) (hp : p < 4)
    (n : Nat) : Cells.wf unlistedByte Config.fileCap (e.skipped n).ended.eout = true ∧
      HoldsWords (e.skipped n).ended.eout (emptyFile gw gh) 4 (4 + p + 1) := by
  have hcap : 2 * (4 + p) + 1 < Config.fileCap := by simp only [Config.fileCap]; omega
  have heout : (e.skipped n).ended.eout = memWrite16 e.eout (2 * (4 + p)) (emptyFile gw gh (4 + p)) := by
    rw [emptyFile_stream _ _ hp, ← h.toNat_wp hp]
    rfl
  rw [heout]
  exact ⟨wf_memWrite16 h.walk.memory hcap _, h.words.append h.walk.memory hcap⟩

theorem Encoder.EmptyPlanes.next {par : Config.Params} {p : Nat} (h : e.EmptyPlanes gw gh par.sentinel p)
    (hp : p < 3) : ∃ e', Encoder.Steps par 2 e e' ∧ e'.EmptyPlanes gw gh par.sentinel (p + 1) := by
  have hp4 : p < 4 := hp.trans (by decide)
  obtain ⟨n, hskip, hend⟩ := h.steps hp4
  obtain ⟨hmemory, hwords⟩ := h.ended hp4 n
  have hplane := h.toNat_plane hp4
  have hnext : e.plane + 1 = BitVec.ofNat 3 (p + 1) := by rw [h.plane, BitVec.ofNat_add]; rfl
  have hpos : (e.plane + 1).setWidth 17 = BitVec.ofNat 17 (p + 1) := by
    apply BitVec.eq_of_toNat_eq
    rw [hnext, BitVec.toNat_setWidth, BitVec.toNat_ofNat, BitVec.toNat_ofNat]
    omega
  have hwp : e.wp + 2 = BitVec.ofNat 17 (8 + 2 * (p + 1)) := by
    rw [h.wp, Nat.mul_succ, ← Nat.add_assoc, BitVec.ofNat_add _ 2]
    rfl
  rw [Encoder.endPlane_next (h.room hp4 n) (hplane.trans_lt hp)] at hend
  exact ⟨_, .succ h.walk.busy hskip (.succ h.walk.busy hend (.zero _)),
    { walk := { h.walk with memory := hmemory }, plane := hnext, pos := hpos, wp := hwp, words := hwords }⟩

theorem Encoder.EmptyPlanes.upTo {par : Config.Params} (h : e.EmptyPlanes gw gh par.sentinel 0) {p : Nat}
    (hp : p < 4) : ∃ e', Encoder.Steps par (2 * p) e e' ∧ e'.EmptyPlanes gw gh par.sentinel p := by
  induction p with
  | zero => exact ⟨e, .zero e, h⟩
  | succ p ih =>
    obtain ⟨e1, hsteps, h1⟩ := ih (by omega)
    obtain ⟨e2, hplane, h2⟩ := h1.next (by omega)
    exact ⟨e2, hsteps.trans hplane, h2⟩

/-! ## The descriptor -/

/-- `e` has `y` rows of the descriptor behind it (44_encoder_visibility.md R242). -/
structure Encoder.EmptyRows (gw gh : Word16) (sent : Colour) (y : Nat) (e : Encoder) : Prop where
  walk    : e.EmptyWalk gw gh sent
  plane   : e.plane = 4
  csLen   : e.csLen = 8
  wp      : e.wp = 16
  pending : e.pending = 0
  row     : e.row = BitVec.ofNat 8 y
  words   : HoldsWords e.eout (emptyFile gw gh) 0 (8 + 2 * y)

theorem Encoder.headed_noPalette {e : Encoder} (h : e.hasPal = 0) (p : Vector Colour 256) :
    (e.headed p).eout = headerWords e.ended.eout 0 (e.headed p).csLen e.gw e.gh := by
  have hnone : ¬(0 : Word16) = 1 := by decide
  simp only [Encoder.headed, withPalette, h, if_neg hnone]

/-- The header before the stream completes the first eight words. -/
theorem holdsWords_headerWords {m : ByteSpace} {gw gh : Word16}
    (hm : Cells.wf unlistedByte Config.fileCap m = true) (h : HoldsWords m (emptyFile gw gh) 4 8) :
    HoldsWords (headerWords m 0 8 gw gh) (emptyFile gw gh) 0 8 := by
  obtain ⟨-, hflag, hlength, hgw, hgh⟩ := headerWords_spec hm 0 8 gw gh
  intro j _ hj
  by_cases hlow : 4 ≤ j
  · rw [memRead16, memRead8_headerWords_ne _ _ _ _ _ (by omega), memRead8_headerWords_ne _ _ _ _ _ (by omega)]
    exact h j hlow hj
  · match j, hlow with
    | 0, _ => exact hflag
    | 1, _ => exact hlength
    | 2, _ => exact hgw
    | 3, _ => exact hgh
    | j + 4, hlow => exact absurd (Nat.le_add_left 4 j) hlow

/-- The end of plane 3 writes the header, and the descriptor begins. -/
theorem Encoder.EmptyPlanes.last {par : Config.Params} (h : e.EmptyPlanes gw gh par.sentinel 3) :
    ∃ e', Encoder.Steps par 2 e e' ∧ e'.EmptyRows gw gh par.sentinel 0 := by
  have hp : 3 < 4 := by decide
  obtain ⟨n, hskip, hend⟩ := h.steps hp
  obtain ⟨hmemory, hwords⟩ := h.ended hp n
  rw [Encoder.endPlane_last (h.room hp n) (h.toNat_plane hp)] at hend
  generalize (e.skipped n).activePalette par.patchTable = p at hend
  have hwp : e.wp + 2 = 16 := by rw [h.wp]; rfl
  have hlen : ((e.skipped n).headed p).csLen = 8 := by
    change BitVec.ofNat 16 ((e.wp + 2).toNat - e.base.toNat) = 8
    rw [hwp, h.walk.base]
    rfl
  have heout : ((e.skipped n).headed p).eout = headerWords (e.skipped n).ended.eout 0 8 gw gh := by
    have hpal : (e.skipped n).hasPal = 0 := h.walk.hasPal
    rw [Encoder.headed_noPalette hpal, hlen, ← h.walk.gw, ← h.walk.gh]
    rfl
  have hheader := (headerWords_spec hmemory 0 8 gw gh).1
  have hfile := holdsWords_headerWords hmemory hwords
  rw [← heout] at hheader hfile
  exact ⟨_, .succ h.walk.busy hskip (.succ h.walk.busy hend (.zero _)),
    { walk := { h.walk with memory := hheader }, plane := rfl, csLen := hlen, wp := hwp, pending := rfl
      row := rfl, words := hfile }⟩

/-- The scan of a row without an opaque column finds none (R241). -/
theorem scanColumn_none {opaqueAt : Nat → Bool} (xs : List Nat) (acc : Bool × Nat × Nat)
    (h : ∀ x ∈ xs, opaqueAt x = false) : xs.foldl (scanColumn opaqueAt) acc = acc := by
  induction xs with
  | nil => rfl
  | cons x xs ih =>
    obtain ⟨hfirst, hrest⟩ := List.forall_mem_cons.1 h
    have hsame : scanColumn opaqueAt acc x = acc := if_neg (Bool.eq_false_iff.1 hfirst)
    rw [List.foldl_cons, hsame, ih hrest]

theorem Encoder.scanRow_empty {e : Encoder} {sent : Colour}
    (h : ∀ x < 320, e.transparent sent (320 * e.row.toNat + x) = true) :
    e.scanRow sent = { e with any := false } := by
  have hnone : ∀ x ∈ List.range Config.virtualWidth,
      (!e.transparent sent (Config.virtualWidth * e.row.toNat + x)) = false := fun x hx =>
    Bool.not_eq_false' .. ▸ h x (List.mem_range.1 hx)
  unfold Encoder.scanRow
  rw [scanColumn_none _ _ hnone]
  simp

/-- The values of an empty row that was handed no hidden columns (R242). -/
theorem Encoder.stored_of_empty {e : Encoder} (hany : e.any = false) (hpending : e.pending = 0) :
    e.storedSkip = 80 ∧ e.storedHide = 0 ∧ e.nextPending = 0 := by
  simp [Encoder.storedSkip, Encoder.storedHide, Encoder.nextPending, hany, hpending, Config.virtualWidth]

/-- A row whose four bytes lie inside EOUT stores the two values of its scan (R242, R243, R245). -/
theorem Encoder.rowStep_inside {e : Encoder} {sent : Colour}
    (hcap : e.wp.toNat + 4 * e.row.toNat + 2 + 1 < Config.fileCap) :
    e.rowStep sent = .ok { e.scanRow sent with
      pending := BitVec.ofNat 9 (e.scanRow sent).nextPending, row := e.row + 1
      eout := memWrite16
        (memWrite16 e.eout (e.wp.toNat + 4 * e.row.toNat) (BitVec.ofNat 16 (e.scanRow sent).storedSkip))
        (e.wp.toNat + 4 * e.row.toNat + 2) (BitVec.ofNat 16 (e.scanRow sent).storedHide) } := by
  have hwp : (e.scanRow sent).wp = e.wp := rfl
  have hrow : (e.scanRow sent).row = e.row := rfl
  have heout : (e.scanRow sent).eout = e.eout := rfl
  have hfirst : e.wp.toNat + 4 * e.row.toNat + 1 < Config.fileCap := by omega
  simp only [Encoder.rowStep, Encoder.outWord, hwp, hrow, heout, if_pos hfirst, if_pos hcap]

/-- The two values of an empty row are the next two words of the file. -/
theorem HoldsWords.append_row {m : ByteSpace} {y : Nat} (h : HoldsWords m (emptyFile gw gh) 0 (8 + 2 * y))
    (hm : Cells.wf unlistedByte Config.fileCap m = true) (hy : y < 200) :
    Cells.wf unlistedByte Config.fileCap (memWrite16 (memWrite16 m (16 + 4 * y) 80) (16 + 4 * y + 2) 0) = true ∧
      HoldsWords (memWrite16 (memWrite16 m (16 + 4 * y) 80) (16 + 4 * y + 2) 0) (emptyFile gw gh) 0
        (8 + 2 * (y + 1)) := by
  obtain ⟨hskip, hhide⟩ := emptyFile_row gw gh y
  have hcap : 2 * (8 + 2 * y + 1) + 1 < Config.fileCap := by simp only [Config.fileCap]; omega
  have hcap' : 2 * (8 + 2 * y) + 1 < Config.fileCap := by omega
  have hfirst := wf_memWrite16 hm hcap' 80
  have hwords := (h.append hm hcap').append (hskip ▸ hfirst) hcap
  rw [hskip, hhide] at hwords
  rw [show 16 + 4 * y = 2 * (8 + 2 * y) by omega, show 2 * (8 + 2 * y) + 2 = 2 * (8 + 2 * y + 1) by omega]
  exact ⟨wf_memWrite16 hfirst hcap 0, hwords⟩

/-- One step writes one empty row. -/
theorem Encoder.EmptyRows.next {par : Config.Params} {y : Nat} (h : e.EmptyRows gw gh par.sentinel y)
    (hy : y < 200) : ∃ e', e.step par = .ok e' ∧ e'.EmptyRows gw gh par.sentinel (y + 1) := by
  have hrow : e.row.toNat = y := by
    rw [h.row, BitVec.toNat_ofNat]
    omega
  have hwp : e.wp.toNat = 16 := congrArg BitVec.toNat h.wp
  have hplane : e.plane.toNat = 4 := congrArg BitVec.toNat h.plane
  have hnext : e.row + 1 = BitVec.ofNat 8 (y + 1) := by rw [h.row, BitVec.ofNat_add]; rfl
  have hcap : e.wp.toNat + 4 * e.row.toNat + 2 + 1 < Config.fileCap := by
    simp only [Config.fileCap]
    omega
  have hempty : ∀ x < 320, e.transparent par.sentinel (320 * e.row.toNat + x) = true := fun x hx =>
    h.walk.view _ (by simp only [Config.canvasSize]; omega)
  obtain ⟨hskip, hhide, hcarry⟩ := Encoder.stored_of_empty (e := { e with any := false }) rfl h.pending
  obtain ⟨hmemory, hwords⟩ := h.words.append_row h.walk.memory hy
  have hstep := (Encoder.step_rowStep (par := par) (hplane ▸ le_rfl) (hrow.trans_lt hy)).trans
    (Encoder.rowStep_inside hcap)
  rw [Encoder.scanRow_empty hempty, hskip, hhide, hcarry, hrow, hwp] at hstep
  exact ⟨_, hstep, { walk := { h.walk with memory := hmemory }, plane := h.plane, csLen := h.csLen, wp := h.wp
                     pending := rfl, row := hnext, words := hwords }⟩

theorem Encoder.EmptyRows.upTo {par : Config.Params} (h : e.EmptyRows gw gh par.sentinel 0) {y : Nat}
    (hy : y ≤ 200) : ∃ e', Encoder.Steps par y e e' ∧ e'.EmptyRows gw gh par.sentinel y := by
  induction y with
  | zero => exact ⟨e, .zero e, h⟩
  | succ y ih =>
    obtain ⟨e1, hsteps, h1⟩ := ih (by omega)
    obtain ⟨e2, hstep, h2⟩ := h1.next hy
    exact ⟨e2, hsteps.snoc h1.walk.busy hstep, h2⟩

/-- Four planes of two steps each, 200 rows and the finish. -/
theorem Encoder.EmptyPlanes.encodes {par : Config.Params} (h : e.EmptyPlanes gw gh par.sentinel 0) :
    ∃ e' : Encoder, Encoder.Steps par 209 e e'.finish ∧ e'.EmptyRows gw gh par.sentinel 200 := by
  obtain ⟨e3, hplanes, h3⟩ := h.upTo (p := 3) (by decide)
  obtain ⟨e4, hlast, h4⟩ := h3.last
  obtain ⟨e5, hrows, h5⟩ := h4.upTo (y := 200) le_rfl
  have hplane : e5.plane.toNat = 4 := congrArg BitVec.toNat h5.plane
  have hrow : e5.row.toNat = 200 := congrArg BitVec.toNat h5.row
  have hfinish : e5.step par = .ok e5.finish := Encoder.step_finish (hplane ▸ le_rfl) (hrow ▸ le_rfl)
  exact ⟨e5, ((hplanes.trans hlast).trans hrows).snoc h5.walk.busy hfinish, h5⟩

end Walk

/-! ## The statement -/

/-- RUN on an idle ENC over a transparent canvas, without a palette, begins its walk (R211 to R216). -/
theorem emptyPlanes_of_runEnc {s u : State} (hmemory : Memory.wf s = true) (hidle : s.enc.busy = false)
    (hpalv : s.enc.palv = false) (hw : s.enc.gw.toNat ≤ 320) (hh : s.enc.gh.toNat ≤ 200)
    (hview : ∀ pos < 64000, s.enc.transparent s.par.sentinel pos = true) (hu : exec .runEnc s = .next u) :
    u = { s with enc := u.enc } ∧ u.enc.EmptyPlanes s.enc.gw s.enc.gh s.par.sentinel 0 := by
  have hrun := (runEncBeginsWalk s hidle).1 hw hh
  simp only [hpalv, Bool.false_eq_true, if_false] at hrun
  cases hrun.symm.trans hu
  exact ⟨rfl, {
    walk := { busy := rfl, err := rfl, hasPal := rfl, base := rfl, gw := rfl, gh := rfl, view := hview
              memory := Memory.wf_eout hmemory }
    plane := rfl, pos := rfl, wp := rfl, words := fun j hlow hj => absurd hlow hj.not_ge }⟩

/-- Settles O44: the words of the finished file are those of `emptyFile`. -/
theorem transparentCanvasEncodes : Obligations.TransparentCanvasEncodes := by
  intro s u hmemory hagenda hdec hidle hpalv hw hh hview hu
  obtain ⟨hframe, hstart⟩ := emptyPlanes_of_runEnc hmemory hidle hpalv hw hh hview hu
  obtain ⟨e, hsteps, hrows⟩ := hstart.encodes
  have hrun := core_run_of_steps hsteps (s := u) (hframe ▸ hagenda) (hframe ▸ hdec) (hframe ▸ rfl) rfl
  have hword (j : Nat) (hj : j < 408) : memRead16 e.eout (2 * j) = emptyFile s.enc.gw s.enc.gh j :=
    hrows.words j j.zero_le hj
  have houtLen : e.finish.outLen = 816 := by
    change BitVec.ofNat 17 (e.base.toNat + e.csLen.toNat + 800) = 816
    rw [hrows.walk.base, hrows.csLen]
    rfl
  refine ⟨_, hrun, rfl, rfl, hrows.walk.err, houtLen, hrows.walk.hasPal, hrows.csLen, hword 0 (by decide),
    hword 1 (by decide), hword 2 (by decide), hword 3 (by decide), fun k hk => ?_, fun y hy => ?_⟩
  · exact (congrArg (memRead16 e.eout) (by omega)).trans
      ((hword (4 + k) (by omega)).trans (emptyFile_stream _ _ hk))
  · obtain ⟨hskip, hhide⟩ := emptyFile_row s.enc.gw s.enc.gh y
    exact ⟨(congrArg (memRead16 e.eout) (by omega)).trans ((hword (8 + 2 * y) (by omega)).trans hskip),
      (congrArg (memRead16 e.eout) (by omega)).trans ((hword (8 + 2 * y + 1) (by omega)).trans hhide)⟩

end Sys2Proof.Machine
end

section
/-! PROOF. The rows of the visibility descriptor (44_encoder_visibility.md R241 to R247): the scan finds the
outermost opaque columns of a row, the two stored values and the carried count follow from them, and so does the
sum law. -/

namespace Sys2Proof.Machine

/-! ## The scan of a row -/

/-- Of the opaque ones among the first `n` columns `x0` is the smallest and `x1` the largest (R241). -/
structure OutermostColumns (clear : Nat → Bool) (n x0 x1 : Nat) : Prop where
  le       : x0 ≤ x1
  lt       : x1 < n
  smallest : clear x0 = false
  largest  : clear x1 = false
  between  : ∀ x < n, clear x = false → x0 ≤ x ∧ x ≤ x1

section Scan

variable {clear : Nat → Bool} {n x0 x1 : Nat}

theorem OutermostColumns.of_single (hbefore : ∀ x < n, clear x = true) (hn : clear n = false) :
    OutermostColumns clear (n + 1) n n where
  le := le_rfl
  lt := n.lt_succ_self
  smallest := hn
  largest := hn
  between := Nat.forall_lt_succ_right.2
    ⟨fun x hx hopaque => absurd (hbefore x hx) (Bool.eq_false_iff.1 hopaque), fun _ => ⟨le_rfl, le_rfl⟩⟩

theorem OutermostColumns.succ_clear (h : OutermostColumns clear n x0 x1) (hn : clear n = true) :
    OutermostColumns clear (n + 1) x0 x1 where
  le := h.le
  lt := h.lt.trans n.lt_succ_self
  smallest := h.smallest
  largest := h.largest
  between := Nat.forall_lt_succ_right.2 ⟨h.between, fun hopaque => absurd hn (Bool.eq_false_iff.1 hopaque)⟩

theorem OutermostColumns.succ_opaque (h : OutermostColumns clear n x0 x1) (hn : clear n = false) :
    OutermostColumns clear (n + 1) x0 n where
  le := h.le.trans h.lt.le
  lt := n.lt_succ_self
  smallest := h.smallest
  largest := hn
  between := Nat.forall_lt_succ_right.2
    ⟨fun x hx hopaque => ⟨(h.between x hx hopaque).1, hx.le⟩, fun _ => ⟨h.le.trans h.lt.le, le_rfl⟩⟩

theorem OutermostColumns.unique {y0 y1 : Nat} (h : OutermostColumns clear n x0 x1)
    (h' : OutermostColumns clear n y0 y1) : x0 = y0 ∧ x1 = y1 :=
  have hx0 := h'.between x0 (h.le.trans_lt h.lt) h.smallest
  have hx1 := h'.between x1 h.lt h.largest
  have hy0 := h.between y0 (h'.le.trans_lt h'.lt) h'.smallest
  have hy1 := h.between y1 h'.lt h'.largest
  ⟨le_antisymm hy0.1 hx0.1, le_antisymm hx1.2 hy1.2⟩

/-- The scan of a row with an opaque column ends with its outermost ones (R241). -/
theorem scanColumn_outermost (clear : Nat → Bool) (n : Nat) (acc : Nat × Nat) :
    (∀ x < n, clear x = true) ∨ ∃ x0 x1, OutermostColumns clear n x0 x1 ∧
      (List.range n).foldl (scanColumn fun x => !clear x) (false, acc) = (true, x0, x1 + 1) := by
  induction n with
  | zero => exact .inl fun x hx => absurd hx x.not_lt_zero
  | succ n ih =>
    simp only [List.range_succ, List.foldl_append, List.foldl_cons, List.foldl_nil]
    obtain hclear | ⟨x0, x1, hcolumns, hscan⟩ := ih
    · cases hn : clear n with
      | true => exact .inl (Nat.forall_lt_succ_right.2 ⟨hclear, hn⟩)
      | false =>
        have hnone : ∀ x ∈ List.range n, (!clear x) = false := fun x hx =>
          Bool.not_eq_false' .. ▸ hclear x (List.mem_range.1 hx)
        refine .inr ⟨n, n, .of_single hclear hn, ?_⟩
        simp [scanColumn_none _ _ hnone, scanColumn, hn]
    · rw [hscan]
      cases hn : clear n with
      | true => exact .inr ⟨x0, x1, hcolumns.succ_clear hn, by simp [scanColumn, hn]⟩
      | false => exact .inr ⟨x0, n, hcolumns.succ_opaque hn, by simp [scanColumn, hn]⟩

end Scan

/-! ## The values of a row -/

/-- What a row stores as skip and hide, and what it carries on, when `pending` was handed to it (R242,
R243). -/
inductive RowValues (clear : Nat → Bool) (pending : Nat) : Nat → Nat → Nat → Prop
  | skipped (h : ∀ x < 320, clear x = true) : RowValues clear pending ((pending + 320) / 4) 0 0
  | shown {x0 x1 : Nat} (h : OutermostColumns clear 320 x0 x1) :
      RowValues clear pending ((pending + x0 / 4 * 4) / 4) (((x1 + 4) / 4 * 4 - x0 / 4 * 4) / 4)
        (320 - (x1 + 4) / 4 * 4)

section Values

variable {clear : Nat → Bool} {pending skip hide carry : Nat}

theorem RowValues.of_clear (h : RowValues clear pending skip hide carry)
    (hclear : ∀ x < 320, clear x = true) : skip = (pending + 320) / 4 ∧ hide = 0 ∧ carry = 0 := by
  cases h with
  | skipped => exact ⟨rfl, rfl, rfl⟩
  | shown h => exact absurd (hclear _ h.lt) (Bool.eq_false_iff.1 h.largest)

theorem RowValues.of_outermost {x0 x1 : Nat} (h : RowValues clear pending skip hide carry)
    (hcolumns : OutermostColumns clear 320 x0 x1) :
    skip = (pending + x0 / 4 * 4) / 4 ∧ hide = ((x1 + 4) / 4 * 4 - x0 / 4 * 4) / 4 ∧
      carry = 320 - (x1 + 4) / 4 * 4 := by
  cases h with
  | skipped h => exact absurd (h _ hcolumns.lt) (Bool.eq_false_iff.1 hcolumns.largest)
  | shown h =>
    obtain ⟨rfl, rfl⟩ := h.unique hcolumns
    exact ⟨rfl, rfl, rfl⟩

/-- The values fit the words of EOUT and `PENDING` (R246). -/
theorem RowValues.fit (h : RowValues clear pending skip hide carry) (hpending : pending < 2 ^ 9) :
    skip < 2 ^ 16 ∧ hide < 2 ^ 16 ∧ carry < 2 ^ 9 := by
  cases h with
  | skipped => omega
  | shown h =>
    have hle := h.le
    have hlt := h.lt
    omega

/-- All the divisions are exact, so a row stores and carries all of its columns (R246, R247). -/
theorem RowValues.sum (h : RowValues clear pending skip hide carry) (hle : pending ≤ 316)
    (hmod : pending % 4 = 0) :
    4 * (skip + hide) + carry = pending + 320 ∧ skip ≤ 159 ∧ hide ≤ 80 ∧ carry ≤ 316 ∧ carry % 4 = 0 := by
  cases h with
  | skipped => omega
  | shown h =>
    have hle := h.le
    have hlt := h.lt
    omega

end Values

/-- Whether column `x` of the row that `e` has reached is transparent (R213). -/
def Encoder.rowClear (e : Encoder) (sent : Colour) (x : Nat) : Bool :=
  e.transparent sent (320 * e.row.toNat + x)

theorem Encoder.scanRow_values (e : Encoder) (sent : Colour) :
    RowValues (e.rowClear sent) e.pending.toNat (e.scanRow sent).storedSkip (e.scanRow sent).storedHide
      (e.scanRow sent).nextPending := by
  obtain hclear | ⟨x0, x1, hcolumns, hscan⟩ :=
    scanColumn_outermost (e.rowClear sent) 320 (e.minc.toNat, e.maxc.toNat)
  · rw [Encoder.scanRow_empty hclear]
    exact .skipped hclear
  · have hrow : e.scanRow sent =
        { e with any := true, minc := BitVec.ofNat 9 x0, maxc := BitVec.ofNat 9 (x1 + 1) } := by
      simp only [Encoder.rowClear] at hscan
      simp only [Encoder.scanRow, Config.virtualWidth, hscan]
    have hle := hcolumns.le
    have hlt := hcolumns.lt
    have hminc : (BitVec.ofNat 9 x0).toNat = x0 := BitVec.toNat_ofNat .. ▸ Nat.mod_eq_of_lt (by omega)
    have hmaxc : (BitVec.ofNat 9 (x1 + 1)).toNat = x1 + 1 :=
      BitVec.toNat_ofNat .. ▸ Nat.mod_eq_of_lt (by omega)
    simp only [hrow, Encoder.storedSkip, Encoder.storedHide, Encoder.nextPending, Encoder.rowSkip,
      Encoder.rowHide, hminc, hmaxc, if_true, Config.virtualWidth]
    exact .shown hcolumns

/-! ## One step of the descriptor -/

/-- Where the row that `e` has reached stores its two words (R245). -/
def Encoder.rowAddress (e : Encoder) : Nat := e.wp.toNat + 4 * e.row.toNat

/-- What one row of the descriptor leaves (R241 to R245). -/
structure Encoder.RowStored (sent : Colour) (e e' : Encoder) : Prop where
  frame  : e' = { e with
    any := e'.any, minc := e'.minc, maxc := e'.maxc, pending := e'.pending, row := e'.row, eout := e'.eout }
  row    : e'.row.toNat = e.row.toNat + 1
  rest   : ∀ a, a < e.rowAddress ∨ e.rowAddress + 4 ≤ a → memRead8 e'.eout a = memRead8 e.eout a
  values : RowValues (e.rowClear sent) e.pending.toNat (memRead16 e'.eout e.rowAddress).toNat
    (memRead16 e'.eout (e.rowAddress + 2)).toNat e'.pending.toNat

/-- Two words in a row read back, and every other byte stays (R245). -/
theorem memRead_two_words {m : ByteSpace} (h : Cells.wf unlistedByte Config.fileCap m = true) {a : Nat}
    (ha : a + 2 + 1 < Config.fileCap) (v w : Word16) :
    memRead16 (memWrite16 (memWrite16 m a v) (a + 2) w) a = v ∧
      memRead16 (memWrite16 (memWrite16 m a v) (a + 2) w) (a + 2) = w ∧
      ∀ b, b < a ∨ a + 4 ≤ b → memRead8 (memWrite16 (memWrite16 m a v) (a + 2) w) b = memRead8 m b := by
  have hcap : a + 1 < Config.fileCap := by omega
  refine ⟨?_, memRead16_memWrite16_same (wf_memWrite16 h hcap v) ha w, fun b hb => ?_⟩
  · rw [memRead16_memWrite16_ne _ _ (by omega), memRead16_memWrite16_same h hcap]
  · rw [memRead8_memWrite16_ne _ _ (by omega) (by omega), memRead8_memWrite16_ne _ _ (by omega) (by omega)]

theorem Encoder.step_storesRow {e : Encoder} {par : Config.Params}
    (hmemory : Cells.wf unlistedByte Config.fileCap e.eout = true) (hplane : 4 ≤ e.plane.toNat)
    (hrow : e.row.toNat < 200) (hroom : e.wp.toNat + 800 ≤ 67111) :
    ∃ e', e.step par = .ok e' ∧ e.RowStored par.sentinel e' := by
  have hcap : e.rowAddress + 2 + 1 < Config.fileCap := by
    simp only [Encoder.rowAddress, Config.fileCap]
    omega
  have hvalues := e.scanRow_values par.sentinel
  obtain ⟨hskip, hhide, hcarry⟩ := hvalues.fit e.pending.isLt
  obtain ⟨hreadSkip, hreadHide, hrest⟩ := memRead_two_words hmemory hcap
    (BitVec.ofNat 16 (e.scanRow par.sentinel).storedSkip) (BitVec.ofNat 16 (e.scanRow par.sentinel).storedHide)
  refine ⟨_, (Encoder.step_rowStep hplane hrow).trans (Encoder.rowStep_inside hcap),
    { frame := rfl, row := ?_, rest := hrest, values := ?_ }⟩
  · rw [BitVec.toNat_add]
    exact Nat.mod_eq_of_lt (Nat.lt_of_le_of_lt hrow (by decide))
  · rw [← Encoder.rowAddress, hreadSkip, hreadHide]
    simpa only [BitVec.toNat_ofNat, Nat.mod_eq_of_lt hskip, Nat.mod_eq_of_lt hhide, Nat.mod_eq_of_lt hcarry]
      using hvalues

/-! ## The statements -/

/-- Settles O42: the scan finds the outermost opaque columns, and they are unique. -/
theorem descriptorRowValues : Obligations.DescriptorRowValues := by
  rintro s s1 _ _ hmoves hwf hbusy hplane rfl hrow hroom rfl
  obtain ⟨e, hstep, hframe, hnext, hrest, hvalues⟩ :=
    Encoder.step_storesRow (par := s.par) (Memory.wf_eout hwf) hplane hrow hroom
  rw [hmoves.enc_eq]
  refine ⟨_, _, _, hmoves.step_next hbusy hstep, congrArg (fun e => { s1 with enc := e }) hframe, hnext, rfl, rfl,
    hrest, hvalues.of_clear, fun x0 x1 hle hlt hsmallest hlargest hbetween => ?_⟩
  exact hvalues.of_outermost ⟨hle, hlt, hsmallest, hlargest, hbetween⟩

/-- Settles O43: the law holds of the values of any row, whatever its opaque columns. -/
theorem descriptorRowSumLaw : Obligations.DescriptorRowSumLaw := by
  rintro s s1 _ _ _ t hmoves hwf hbusy hplane rfl hrow hroom hle hmod ht rfl rfl
  obtain ⟨e, hstep, -, -, -, hvalues⟩ :=
    Encoder.step_storesRow (par := s.par) (Memory.wf_eout hwf) hplane hrow hroom
  cases (hmoves.step_next hbusy hstep).symm.trans ht
  exact hvalues.sum hle hmod

end Sys2Proof.Machine
end

section
/-! PROOF. The control commands, and the codes of a `CMD` register that are no command (60_exceptions.md R276 to
R278, 30_encoding.md R112). -/

namespace Sys2Proof.Machine

/-! ## Control commands -/

/-- Settles O21: the command's meaning is the state as it is. -/
theorem nopChangesNothing : Obligations.NopChangesNothing := fun _ _ => rfl

theorem exec_clear_idle {s : State} {e : Engine} (hidle : (s.regs e).busy = false) :
    exec (.clear e) s = .next (s.acknowledge e) := State.whenIdle_idle hidle _

/-- Settles O22: an idle engine takes the command, and the acknowledgement of each engine is these fields. -/
theorem clearAcknowledges : Obligations.ClearAcknowledges :=
  fun _ => ⟨exec_clear_idle (e := .dec), exec_clear_idle (e := .enc)⟩

/-! ## Reserved codes -/

theorem decodeCode_reserved (e : Engine) {code : Byte}
    (h : code.toNat ∉ [0x00, 0x01, 0x02, 0x10, 0x11, 0x12, 0x13, 0x14, 0x15, 0x16, 0x20, 0x21, 0x22]) :
    decodeCode e code = .error (.reservedCode e code) := by
  unfold decodeCode
  split
  case h_14 => rfl
  all_goals
    next hcode => exact absurd (by rw [hcode]; decide) h

/-- A write to the `CMD` register is the fetch of a command (10_state.md R49). -/
theorem step_writeCommand {s : State} {turns : List Turn} {e : Engine} {v : Word32}
    (h : s.agenda = .host (.writeReg e 0 v) :: turns) :
    step s = (({ s with agenda := turns } : State).fetchCommand e v).outcome := by
  rw [step_eq_outcome]
  simp only [State.fetch, h, State.fetchHost]

theorem State.fetchCommand_error (s : State) {e : Engine} {v : Word32} {err : DecodeError}
    (h : decodeCode e (v.extractLsb' 0 8) = .error err) :
    s.fetchCommand e v = .answer (s.whenIdle e (.next (s.faultEntry e .illegalCommand 0))) := by
  simp only [State.fetchCommand, decode, h]

/-- Fault entry clears `BUSY` too, which an idle engine shows as 0 already, so nothing but the fields of R278
changes. -/
theorem State.faultEntry_eq_onlyFaulted (s : State) (e : Engine) (c : Cause) :
    s.faultEntry e c 0 = s.onlyFaulted e c.code := by
  cases e <;> rfl

/-- Settles O7: the low byte of the value decodes to nothing, so the idle engine enters the fault. -/
theorem reservedCodeRaisesIllegalCommand : Obligations.ReservedCodeRaisesIllegalCommand := by
  intro s turns e v h hidle hcode
  have hdecode := decodeCode_reserved e (code := v.extractLsb' 0 8) (by rwa [extract_toNat])
  rw [step_writeCommand h, State.fetchCommand_error _ hdecode]
  exact (State.whenIdle_idle (s := { s with agenda := turns }) hidle _).trans
    (congrArg _ (State.faultEntry_eq_onlyFaulted _ e .illegalCommand))

end Sys2Proof.Machine
end

section
/-! PROOF. A running encode ends (43_encoder_runs.md R216 to R221, 70_reset_and_hazards.md R310): every run passes
at least one position, so the 64000 positions, the four ends of planes, the 200 rows and the finish bound its
steps. -/

namespace Sys2Proof.Machine

/-! ## A run passes its first position -/

theorem Encoder.emit16_pos {e e' : Encoder} {v : Word16} (h : e.emit16 v = .ok e') : e'.pos = e.pos := by
  rcases e.emit16_cases v with ⟨-, ho⟩ | ⟨-, -, ho⟩ | ⟨-, -, ho⟩ <;> rw [ho] at h <;> cases h
  rfl

/-- A SKIP that begins at a transparent position moves `POS` past it (R217). -/
theorem Encoder.skipRun_advances {sent : Colour} {e e' : Encoder} (hfirst : e.InRun sent true 0)
    (h : e.skipRun sent = .ok e') : e.pos.toNat + 4 ≤ e'.pos.toNat := by
  obtain ⟨n, hn, hrun, hend⟩ := exists_run_length (e.InRun sent true) Config.countMax
  have hone : n ≠ 0 := by
    rintro rfl
    exact hend.elim nofun (absurd hfirst)
  have hpos := Encoder.toNat_skipped_pos hrun
  suffices e'.pos = (e.skipped n).pos by rw [this, hpos]; omega
  by_cases hinside : e.pos.toNat + 4 * n < Config.canvasSize
  · rw [Encoder.skipRun_inside hn hrun hend hinside] at h
    exact Encoder.emit16_pos h
  · rw [Encoder.skipRun_past hn hrun (Nat.le_of_not_lt hinside)] at h
    cases h
    rfl

/-- CopyRun's loop at an opaque position passes it and goes on (R219). -/
theorem Encoder.copyLoop_first {sent : Colour} {k : Nat} {e e' : Encoder} (hfirst : e.InRun sent false 0)
    (h : Encoder.copyLoop sent (k + 1) e = .ok e') :
    ∃ e1 : Encoder, e1.pos.toNat = e.pos.toNat + 4 ∧ Encoder.copyLoop sent k e1 = .ok e' := by
  cases hcolour : lookupColour e.cim (e.pix sent e.pos.toNat) with
  | none =>
    rw [Encoder.copyLoop_unmapped k hfirst hcolour] at h
    cases h
  | some i =>
    rw [Encoder.copyLoop_mapped k hfirst hcolour] at h
    obtain ⟨e1, hemit, hloop⟩ := except_bind_ok h
    refine ⟨_, ?_, hloop⟩
    have hinside : e.pos.toNat + 4 * 0 < 64000 := hfirst.1
    rw [(Encoder.emit8_ok hemit).2]
    bv_omega

theorem Encoder.copyLoop_pos_le {sent : Colour} (k : Nat) {e e' : Encoder}
    (h : Encoder.copyLoop sent k e = .ok e') : e.pos.toNat ≤ e'.pos.toNat := by
  induction k generalizing e with
  | zero => cases h; exact le_rfl
  | succ k ih =>
    by_cases hfirst : e.InRun sent false 0
    · obtain ⟨e1, hpos, hloop⟩ := Encoder.copyLoop_first hfirst h
      have hle := ih hloop
      omega
    · rw [Encoder.copyLoop_stops (.inr hfirst)] at h
      cases h
      exact le_rfl

/-- A CopyRun that ends is its loop past the placeholder, and the count word in EOUT (R219, R220). -/
theorem Encoder.copyRun_ok_loop {sent : Colour} {e e' : Encoder} (h : e.copyRun sent = .ok e') :
    ∃ e2 eout, Encoder.copyLoop sent Config.countMax e.reserved = .ok e2 ∧ e' = { e2 with eout := eout } := by
  rw [Encoder.copyRun] at h
  split at h
  case h_2 => cases h
  next e1 hreserve =>
  split at h
  case h_2 => cases h
  next e2 hloop =>
  obtain ⟨eout, rfl⟩ := Encoder.outWord_ok h
  unfold Encoder.reserve16 at hreserve
  split at hreserve <;> cases hreserve
  exact ⟨e2, eout, hloop, rfl⟩

/-- A COPY that begins at an opaque position moves `POS` past it (R219). -/
theorem Encoder.copyRun_advances {sent : Colour} {e e' : Encoder} (hfirst : e.InRun sent false 0)
    (h : e.copyRun sent = .ok e') : e.pos.toNat + 4 ≤ e'.pos.toNat := by
  obtain ⟨e2, eout, hloop, rfl⟩ := Encoder.copyRun_ok_loop h
  obtain ⟨e1, hpos, hrest⟩ := Encoder.copyLoop_first (k := 16382) (e := e.reserved) hfirst hloop
  have hle : e1.pos.toNat ≤ e2.pos.toNat := Encoder.copyLoop_pos_le _ hrest
  exact hpos.symm.trans_le hle

/-! ## The steps that are left -/

/-- A bound on the steps left of a running encode: a run for each position left of the plane, the end of the
plane, 16001 steps for each plane after it, the rows of the descriptor, and the finish. -/
def Encoder.stepsLeft (e : Encoder) : Nat :=
  if e.plane.toNat < 4 then (64003 - e.pos.toNat) / 4 + 1 + 16001 * (3 - e.plane.toNat) + 201
  else 200 - e.row.toNat + 1

theorem Encoder.stepsLeft_of_walk {e : Encoder} (h : e.plane.toNat < 4) :
    e.stepsLeft = (64003 - e.pos.toNat) / 4 + 1 + 16001 * (3 - e.plane.toNat) + 201 := if_pos h

theorem Encoder.stepsLeft_of_rows {e : Encoder} (h : 4 ≤ e.plane.toNat) :
    e.stepsLeft = 200 - e.row.toNat + 1 := if_neg h.not_gt

theorem Encoder.stepsLeft_bounds (e : Encoder) : 1 ≤ e.stepsLeft ∧ e.stepsLeft ≤ 64205 := by
  unfold Encoder.stepsLeft
  split <;> omega

/-- A run that passes a position leaves fewer steps of its plane. -/
theorem Encoder.stepsLeft_lt_of_advances {e e' : Encoder} (hplane : e.plane.toNat < 4)
    (hpos : e.pos.toNat < 64000) (hwalk : e.Walks e') (hmove : e.pos.toNat + 4 ≤ e'.pos.toNat) :
    e'.stepsLeft < e.stepsLeft := by
  rw [Encoder.stepsLeft_of_walk hplane, Encoder.stepsLeft_of_walk (hwalk.plane_eq ▸ hplane), hwalk.plane_eq]
  omega

/-- The end of a plane leaves the planes after it, or the descriptor (R221). -/
theorem Encoder.stepsLeft_endPlane {e e' : Encoder} {table : Vector DacColour 58} (hstream : e.StreamOk)
    (hplane : e.plane.toNat < 4) (h : e.endPlane table = .ok e') : e'.stepsLeft < e.stepsLeft := by
  rw [Encoder.stepsLeft_of_walk hplane]
  by_cases hfull : e.base.toNat + 65535 < e.wp.toNat + 2
  · rw [Encoder.endPlane_full hfull] at h
    cases h
  have hroom : e.Room 2 := ⟨hstream.1, Nat.le_of_not_lt hfull⟩
  by_cases hlast : e.plane.toNat = 3
  · rw [Encoder.endPlane_last hroom hlast] at h
    cases h
    rw [Encoder.stepsLeft_of_rows (e := e.headed _) le_rfl]
    change 200 - 0 + 1 < _
    omega
  · have hnext := plane_succ_toNat hplane
    have hpos : ((e.plane + 1).setWidth 17).toNat = e.plane.toNat + 1 := by
      rw [BitVec.toNat_setWidth, hnext]
      omega
    rw [Encoder.endPlane_next hroom (by omega)] at h
    cases h
    rw [Encoder.stepsLeft_of_walk (by simp only [hnext]; omega)]
    simp only [hnext, hpos]
    omega

/-- A row of the descriptor leaves one row fewer (R245). -/
theorem Encoder.stepsLeft_lt_of_row {e e' : Encoder} (hplane : 4 ≤ e.plane.toNat) (hrow : e.row.toNat < 200)
    (hplane' : e'.plane = e.plane) (hrow' : e'.row = e.row + 1) : e'.stepsLeft < e.stepsLeft := by
  have hnext : (e.row + 1).toNat = e.row.toNat + 1 := by bv_omega
  rw [Encoder.stepsLeft_of_rows hplane, Encoder.stepsLeft_of_rows (hplane' ▸ hplane), hrow', hnext]
  omega

/-- A step of a running encoder that ends without a fault ends the encode or leaves fewer steps. -/
theorem Encoder.step_progress {e e' : Encoder} {par : Config.Params} (hstream : e.StreamOk)
    (h : e.step par = .ok e') : e'.busy = false ∨ e'.stepsLeft < e.stepsLeft := by
  by_cases hplane : e.plane.toNat < 4
  · right
    by_cases hpos : e.pos.toNat < 64000
    · cases hview : e.transparent par.sentinel e.pos.toNat with
      | true =>
        rw [Encoder.step_skipRun hplane hpos hview] at h
        exact Encoder.stepsLeft_lt_of_advances hplane hpos (Encoder.skipRun_ok h)
          (Encoder.skipRun_advances ⟨hpos, hview⟩ h)
      | false =>
        rw [Encoder.step_copyRun hplane hpos hview] at h
        exact Encoder.stepsLeft_lt_of_advances hplane hpos (Encoder.copyRun_ok h)
          (Encoder.copyRun_advances ⟨hpos, hview⟩ h)
    · rw [Encoder.step_endPlane hplane (Nat.le_of_not_lt hpos)] at h
      exact Encoder.stepsLeft_endPlane hstream hplane h
  · have hrows := Nat.le_of_not_lt hplane
    cases Encoder.step_effect h with
    | walks hlt => exact absurd hlt hplane
    | nextPlane hlt => exact absurd hlt hplane
    | lastPlane _ _ hlt => exact absurd hlt hplane
    | row any minc maxc pending eout _ hrow => exact .inr (Encoder.stepsLeft_lt_of_row hrows hrow rfl rfl)
    | finish => exact .inl rfl

/-! ## The end of an encode -/

theorem core_run_succ {s t : State} (h : step s = .next t) (k : Nat) :
    Sys2Proof.core.run (k + 1) s = Sys2Proof.core.run k t := by
  have hcore : Sys2Proof.core.step s = .next t := h
  simp only [Host.Core.run, hcore]

/-- A step of a running ENC ends the encode, by its finish or by a fault, or leaves fewer steps. -/
theorem State.EncMoves.progress {s s1 : State} (h : s.EncMoves s1) (hwalk : s.enc.WalkOk)
    (hbusy : s.enc.busy = true) : ∃ t, step s = .next t ∧ t.agenda = s1.agenda ∧ t.dec = s1.dec ∧
      (t.enc.busy = false ∨ t.enc.stepsLeft < s.enc.stepsLeft) := by
  have hstream := (hwalk.parts hbusy).1.stream
  obtain ⟨t, ht⟩ := State.hasNext_afterEnc (s := s1) (Encoder.step_unstopped hstream s.par)
  refine ⟨t, (h.step_afterEnc hbusy).trans ht, ?_⟩
  obtain ⟨e, he, rfl⟩ | ⟨c, epc, -, rfl⟩ := State.afterEnc_next ht
  · exact ⟨rfl, rfl, Encoder.step_progress hstream he⟩
  · exact ⟨rfl, rfl, .inl rfl⟩

/-- With at most `n` steps left, `n` steps end the encode. -/
theorem encode_ends_within (n : Nat) {s : State} (hwalk : s.enc.WalkOk) (hagenda : s.agenda = [])
    (hdec : s.dec.busy = false) (hbusy : s.enc.busy = true) (hleft : s.enc.stepsLeft ≤ n) :
    ∃ k t, k ≤ n ∧ Sys2Proof.core.run k s = .next t ∧ t.enc.busy = false := by
  induction n generalizing s with
  | zero =>
    have hone := s.enc.stepsLeft_bounds.1
    omega
  | succ n ih =>
    have hmoves : s.EncMoves s := .inl ⟨hagenda, hdec, rfl⟩
    obtain ⟨t, hstep, htagenda, htdec, hprogress⟩ := hmoves.progress hwalk hbusy
    cases htbusy : t.enc.busy with
    | false => exact ⟨1, t, by omega, core_run_succ hstep 0, htbusy⟩
    | true =>
      have hless := hprogress.resolve_left (by simp [htbusy])
      obtain ⟨k, u, hk, hu, hidle⟩ := ih (stepKeepsEncoderBounds s t hwalk hstep)
        (htagenda.trans hagenda) (htdec ▸ hdec) htbusy (by omega)
      exact ⟨k + 1, u, by omega, (core_run_succ hstep k).trans hu, hidle⟩

/-- Settles O60: 64000 positions, four ends of planes, 200 rows and the finish are 64205 steps. -/
theorem encodeEnds : Obligations.EncodeEnds := fun s hs hagenda hdec hbusy =>
  encode_ends_within 64205 hs.walk hagenda hdec hbusy s.enc.stepsLeft_bounds.2

end Sys2Proof.Machine
end

section
/-! PROOF. A busy engine is closed to the host (70_reset_and_hazards.md R309, R312): a command written to it is
ignored, and of its registers and spaces only `STATUS` answers. -/

namespace Sys2Proof.Machine

/-! ## Commands -/

theorem State.fetchCommand_ok (s : State) {e : Engine} {v : Word32} {i : Instr} {rest : List Byte}
    (h : decode (.cmd e) [v.extractLsb' 0 8] = .ok (i, rest)) : s.fetchCommand e v = .run i s := by
  simp only [State.fetchCommand, h]

/-- A host command leaves a busy engine, and all else, as it is (R309). -/
theorem exec_host_busy {i : Instr} {s : State} (hi : onStream i = false)
    (hbusy : (s.regs (engineOf i)).busy = true) : exec i s = .next s := by
  unfold exec
  cases i with
  | eop | skip | repeatRun | copyRun => cases hi
  | nop e => rfl
  | runDec | runEnc | clear e => exact State.whenIdle_busy hbusy _
  | _ => exact State.tableCommand_busy hbusy _

/-- A busy engine ignores every code, the reserved ones too (R309). -/
theorem State.fetchCommand_busy {s : State} {e : Engine} (hbusy : (s.regs e).busy = true) (v : Word32) :
    (s.fetchCommand e v).outcome = .next s := by
  cases hcode : decodeCode e (v.extractLsb' 0 8) with
  | ok i =>
    obtain ⟨hi, rfl⟩ := onStream_of_decodeCode hcode
    rw [s.fetchCommand_ok (i := i) (rest := []) (by simp only [decode, hcode])]
    exact exec_host_busy hi hbusy
  | error err =>
    rw [s.fetchCommand_error hcode]
    exact State.whenIdle_busy hbusy _

/-- Settles O8: a busy engine ignores every code, and an idle one runs what the code decodes to. -/
theorem commandWriteNeedsIdleEngine : Obligations.CommandWriteNeedsIdleEngine := by
  intro s turns e v h
  refine ⟨fun hbusy => ?_, fun i rest _ hdecode => ?_⟩
  · exact (step_writeCommand h).trans (State.fetchCommand_busy (s := { s with agenda := turns }) hbusy v)
  · rw [step_writeCommand h, State.fetchCommand_ok _ hdecode]
    rfl

/-! ## Registers and spaces -/

theorem State.hostReadReg_frame (s : State) (e : Engine) (n : Nat) :
    s.hostReadReg e n =
      { s with rdata := (s.hostReadReg e n).rdata, free := (s.hostReadReg e n).free } := by
  unfold State.hostReadReg
  split <;> rfl

/-- `STATUS` is read at any time, and its bit 0 is `BUSY` (10_state.md R42). -/
theorem State.hostReadReg_status (s : State) (e : Engine) :
    (s.hostReadReg e 2).free = s.free ∧
      (s.hostReadReg e 2).rdata.toNat % 2 = (s.regs e).busy.toNat := by
  have hread : s.hostReadReg e 2 = s.returned (s.readReg e 2) := if_neg (by simp)
  have hvalue : (s.readReg e 2).toNat = (s.regs e).status.toNat :=
    (congrArg BitVec.toNat (s.readReg_common e (by decide))).trans (BitVec.toNat_setWidth_of_le (by decide))
  have hbit := Bool.toNat_lt (s.regs e).busy
  rw [hread]
  refine ⟨rfl, ?_⟩
  change (s.readReg e 2).toNat % 2 = _
  rw [hvalue, EngineRegs.status_toNat]
  omega

theorem State.hostWriteReg_busy {s : State} {e : Engine} (hbusy : (s.regs e).busy = true) (n : Nat)
    (v : Word32) : s.hostWriteReg e n v = s := if_pos hbusy

theorem State.hostWrite_busy {s : State} {space : Space} (hbusy : (s.regs space.engine).busy = true)
    (a : Nat) (v : Word32) : s.hostWrite space a v = s := by
  simp [State.hostWrite, State.mayWrite, hbusy]

/-- Settles O46: reads move the latch and the counter of free values alone, and every write is refused. -/
theorem busyEngineIsClosedToHost : Obligations.BusyEngineIsClosedToHost := by
  intro s turns a h hbusy
  match a, h, hbusy with
  | .readReg e n, h, hbusy =>
    refine ⟨_, step_readReg h, State.hostReadReg_frame _ e n, ?_⟩
    rintro ⟨f, ⟨⟩⟩
    obtain ⟨hfree, hvalue⟩ := State.hostReadReg_status { s with agenda := turns } e
    exact ⟨hfree, hvalue.trans (congrArg Bool.toNat hbusy)⟩
  | .writeReg e 0 v, h, hbusy => exact ⟨_, (commandWriteNeedsIdleEngine s turns e v h).1 hbusy, rfl, nofun⟩
  | .writeReg e (n + 1) v, h, hbusy =>
    have hsame := State.hostWriteReg_busy (s := { s with agenda := turns }) hbusy (n + 1) v
    exact ⟨_, (step_writeReg h n.succ_pos).trans (congrArg _ hsame), rfl, nofun⟩
  | .read space a, h, hbusy => exact ⟨_, step_read h, State.hostRead_frame _ space a, nofun⟩
  | .write space a v, h, hbusy =>
    have hsame := State.hostWrite_busy (s := { s with agenda := turns }) hbusy a v
    exact ⟨_, (step_write h).trans (congrArg _ hsame), rfl, nofun⟩

end Sys2Proof.Machine
end
